-- ==== Sys2Proof/Word.lean ====
section
/-! DEFINITION. The words of the block: bytes, stored address and instruction words, bit strings. -/

namespace Sys2Proof

/-- One byte of a stream. -/
abbrev Byte := BitVec 8

/-- An address or instruction word as stored: XLEN bits of it exist (10_state.md R20 "64 stored"). -/
abbrev Word := BitVec 64

/-- A bit string; its first element is the first bit on the wire (00_scope.md R9). -/
abbrev Bits := List Bool

end Sys2Proof
end

