-- ==== Sys2Proof/Machine/Bits.lean ====
section
/-! DEFINITION. Bit strings and bytes: bit order, byte order, field reads, sign extension (00_scope.md R9,
20_memory.md R71 and R72). -/

namespace Sys2Proof

/-- `bits_w(v)`: the `w` low bits of `v`, least significant first (00_scope.md R9). -/
def bitsOf : Nat → Nat → Bits
  | 0, _ => []
  | w + 1, v => (v % 2 == 1) :: bitsOf w (v / 2)

/-- `value(s)`: the unsigned number of a bit string, first bit least significant (00_scope.md R9). -/
def value : Bits → Nat
  | [] => 0
  | b :: t => b.toNat + 2 * value t

/-- `n` bytes of a bit string: stream bit i is bit i mod 8 of byte i / 8, and missing bits are 0
(20_memory.md R72). -/
def packBytes : Nat → Bits → List Byte
  | 0, _ => []
  | n + 1, s => BitVec.ofNat 8 (value (s.take 8)) :: packBytes n (s.drop 8)

/-- The number of whole bytes that hold `n` bits. -/
def bytesFor (n : Nat) : Nat := (n + 7) / 8

/-- The bytes of a bit string, the last one padded with 0 bits (20_memory.md R72). -/
def toBytes (s : Bits) : List Byte := packBytes (bytesFor s.length) s

/-- The bits of a byte sequence, in stream order (20_memory.md R72). -/
def ofBytes : List Byte → Bits
  | [] => []
  | b :: t => bitsOf 8 b.toNat ++ ofBytes t

/-- `ext(i)`: bit i of the string, or its last bit for a position past the end (44_deserializer.md R270). -/
def extBit (s : Bits) (i : Nat) : Bool := s.getD i (s.getLastD false)

/-- `read(p, w)`: the `w` bits from position `p` on, as an unsigned number (44_deserializer.md R270). -/
def readBits (s : Bits) : Nat → Nat → Nat
  | _, 0 => 0
  | p, w + 1 => (extBit s p).toNat + 2 * readBits s (p + 1) w

/-- `sext_N(v, a)`: the `a`-bit value `v` sign-extended to `N` bits from its bit a-1 (00_scope.md R9). -/
def sext (N a v : Nat) : Nat := if v.testBit (a - 1) then v + (2 ^ N - 2 ^ a) else v

/-- `v mod 2^w` of a stored word: the `w` bits that exist when XLEN is `w` (00_scope.md R9, 10_state.md R24). -/
def truncX (w : Nat) (v : Word) : Word := BitVec.ofNat 64 (v.toNat % 2 ^ w)

end Sys2Proof
end

