-- ==== Sys2Proof/Config.lean ====
section
/-! DEFINITION. What an implementation fixes: the source's constants and the parameters of 00_scope.md R7. -/

namespace Sys2Proof

/-- Bits of `msg_type` (R7 MSGTYPELEN). -/
abbrev msgTypeLen : Nat := 2
/-- Bits of `format` (R7 FORMATLEN). -/
abbrev formatLen : Nat := 2
/-- Bits of `subformat` (R7 SUBFORMATLEN). -/
abbrev subformatLen : Nat := 2
/-- Bits of `branches` (R7 BRANCHLEN). -/
abbrev branchLen : Nat := 5
/-- Bits of `privilege` (R7 PRIVLEN). -/
abbrev privLen : Nat := 3
/-- Reserved bits after `privilege` in a SYNC packet (R7 SYNCRSVLEN, 90_conflicts.md C3). -/
abbrev syncRsvLen : Nat := 2
/-- Bits of `cause` (R7 CAUSELEN). -/
abbrev causeLen : Nat := 5
/-- Bits of the PULP length field (R7 PULPPKTLEN). -/
abbrev pulpPktLen : Nat := 4
/-- Bits of the Timer payload (R7 TIMELEN). -/
abbrev timeLen : Nat := 64
/-- Branch-map capacity (R7 MAPMAX). -/
abbrev mapMax : Nat := 31

/-- The classifier's answers for one instruction word (00_scope.md R6). -/
structure Classes where
  isBranch : Bool
  isUnpred : Bool
  isUnsupported : Bool
deriving DecidableEq, Repr

/-- One line of a classifier given as data: it answers `classes` for the words that agree with `value`
under `mask`, and only under the given `implicit_ret` if one is given. DESIGN CHOICE (safe): CLASSIFY is
a parameter (R6); a list of these lines, the first that holds winning, can be any function from 64-bit
words and `implicit_ret` to the three answers. Log entry 6. -/
structure ClassRule where
  mask : Word
  value : Word
  implicitRet : Option Bool
  classes : Classes
deriving DecidableEq, Repr

/-- The parameters fixed when the machine is instantiated (R7): P_PULP_TVAL, STATW and CLASSIFY. No
operation writes them. They stand in the state as data, so that a statement over all states is a
statement over all their values. Log entries 6 and 7. -/
structure Params where
  pulpTval : Bool
  statw : Nat
  classifier : List ClassRule
deriving DecidableEq, Repr

end Sys2Proof
end

