-- ==== Sys2Proof/Syntax.lean ====
section
/-! DEFINITION. The operands and the instructions: error codes, packet bundles, records, one constructor
of `Instr` for each row of spec/opcode_table.json, and the requests of the operation port. -/

namespace Sys2Proof

/-- The error taxonomy (60_exceptions.md R300), in the listing order that numbers it. `noError` is NONE in
STATUS and OK on the result port. -/
inductive ErrCode where
  | noError | invalid | nomem | badPacket | badInstr | badConfig | badRas | badVma | sectionEmpty
  | fileOpen | fileRead | fileWrite | fileScan | unimplemented
deriving DecidableEq, Repr

/-- The packet bundle (10_state.md R40). The counts are naturals; a host's negative count would be
rejected like 0 (43_serializer.md R231 check 6). DEDUCED (safe), log entry 8. -/
structure Packet where
  msgType : BitVec 2
  format : BitVec 2
  subformat : BitVec 2
  branches : Nat
  branchMap : BitVec 31
  mapBits : Nat
  address : Word
  addrBits : Nat
  privilege : BitVec 3
  branch : Bool
  cause : BitVec 5
  interrupt : Bool
  tval : Word
  userdata : BitVec 32
  time : BitVec 64
deriving DecidableEq, Repr

/-- The instruction record handed to OP_STEP (10_state.md R24). The host's values are naturals of any
width; each is cut to its field's width when a slot is built (R24, R26). DEDUCED (safe), log entry 8. -/
structure Record where
  valid : Bool
  exception : Bool
  interrupt : Bool
  cause : Nat
  tval : Nat
  priv : Nat
  iaddr : Nat
  instr : Nat
  compressed : Bool
deriving DecidableEq, Repr

/-- What the host asks of a packet in the plain framing: write it at an alignment after carried bits
(43_serializer.md R242), or read it at an alignment with its bit count (44_deserializer.md R280).
DESIGN CHOICE (safe), log entry 1: an opcode-table row names both rules, and this operand picks one. -/
inductive PlainUse where
  | write (align : Nat) (carry : Byte)
  | read (align n : Nat)
deriving DecidableEq, Repr

/-- What the host asks of a packet in the PULP framing: write its frame (43_serializer.md R243), or read
it from a frame with the given length nibble (44_deserializer.md R281). DESIGN CHOICE (safe), log entry 1. -/
inductive PulpUse where
  | write
  | read (len : BitVec 4)
deriving DecidableEq, Repr

/-- The instructions: a constructor for each row of spec/opcode_table.json, in its order. -/
inductive Instr where
  | branchFullPlain (u : PlainUse) (branches : Nat) (branchMap : BitVec 31) (mapBits : Nat) (address : Word) (addrBits : Nat)
  | branchFullNoaddrPlain (u : PlainUse) (branchMap : BitVec 31) (mapBits : Nat)
  | branchDiffPlain (u : PlainUse) (branches : Nat) (branchMap : BitVec 31) (mapBits : Nat) (address : Word) (addrBits : Nat)
  | branchDiffNoaddrPlain (u : PlainUse) (branchMap : BitVec 31) (mapBits : Nat)
  | addrOnlyPlain (u : PlainUse) (address : Word) (addrBits : Nat)
  | syncStartPlain (u : PlainUse) (privilege : BitVec 3) (branch : Bool) (address : Word)
  | syncExceptionPlain (u : PlainUse) (privilege : BitVec 3) (branch : Bool) (address : Word) (cause : BitVec 5) (interrupt : Bool) (tval : Word)
  | syncContextPlain (u : PlainUse) (privilege : BitVec 3)
  | syncReservedPlain (u : PlainUse) (privilege : BitVec 3)
  | timerPlain (u : PlainUse) (time : BitVec 64)
  | softwarePlain (u : PlainUse) (userdata : BitVec 32)
  | reservedMsg0Plain (u : PlainUse)
  | branchFullPulp (u : PulpUse) (branches : Nat) (branchMap : BitVec 31) (mapBits : Nat) (address : Word) (addrBits : Nat)
  | branchFullNoaddrPulp (u : PulpUse) (branchMap : BitVec 31) (mapBits : Nat)
  | branchDiffPulp (u : PulpUse) (branches : Nat) (branchMap : BitVec 31) (mapBits : Nat) (address : Word) (addrBits : Nat)
  | branchDiffNoaddrPulp (u : PulpUse) (branchMap : BitVec 31) (mapBits : Nat)
  | addrOnlyPulp (u : PulpUse) (address : Word) (addrBits : Nat)
  | syncStartPulp (u : PulpUse) (privilege : BitVec 3) (branch : Bool) (address : Word)
  | syncExceptionPulp (u : PulpUse) (privilege : BitVec 3) (branch : Bool) (address : Word) (cause : BitVec 5) (interrupt : Bool) (tval : Word)
  | syncContextPulp (u : PulpUse) (privilege : BitVec 3)
  | syncReservedPulp (u : PulpUse) (privilege : BitVec 3)
  | timerPulp (u : PulpUse) (time : BitVec 64)
  | softwarePulp (u : PulpUse) (userdata : BitVec 32)
  | reservedMsg0Pulp (u : PulpUse)
  | opReset
  | opConfig (cfg0 cfg1 : BitVec 32)
  | opStep (r : Record)
  | opEnd
  | opInject (p : Packet)
  | opClearStatus
  | opRead
  | opSerPlain (p : Packet) (align : Nat) (carry : Byte)
  | opSerPulp (p : Packet)
  | opDesPlain (bytes : List Byte) (align n : Nat)
  | opDesPulp (bytes : List Byte)
deriving DecidableEq, Repr

/-- A request on the operation port (10_state.md R42): an operation with its operands (they have no bit
encoding, 30_encoding.md R112), or an encoded packet to be read: plain bytes with the start alignment and
the bit count (20_memory.md R82), or the bytes of a PULP frame. DESIGN CHOICE (safe), log entries 1 and 2. -/
inductive Request where
  | op (i : Instr)
  | plain (bytes : List Byte) (align n : Nat)
  | pulp (bytes : List Byte)
deriving DecidableEq, Repr

end Sys2Proof
end

