-- ==== Sys2Proof/Machine/Operands.lean ====
section
/-! DEFINITION. Operand forms: XLEN and the configuration fields, map and address widths, the packet kinds
and bundles, the record forms. -/

namespace Sys2Proof

/-- XLEN: 64 when `arch64` is 1, else 32 (00_scope.md R7, 10_state.md R21). -/
def xlen (arch64 : Bool) : Nat := if arch64 then 64 else 32

/-- The number of an error code (60_exceptions.md R300). -/
def ErrCode.number : ErrCode → Nat
  | .noError => 0 | .invalid => 1 | .nomem => 2 | .badPacket => 3 | .badInstr => 4 | .badConfig => 5
  | .badRas => 6 | .badVma => 7 | .sectionEmpty => 8 | .fileOpen => 9 | .fileRead => 10
  | .fileWrite => 11 | .fileScan => 12 | .unimplemented => 13

namespace Cfg0

/-- CFG0 bit 0 (10_state.md R21). -/
def arch64 (c : BitVec 32) : Bool := c.getLsbD 0
/-- CFG0 bit 1 (10_state.md R21). -/
def fullAddress (c : BitVec 32) : Bool := c.getLsbD 1
/-- CFG0 bit 2 (10_state.md R21). -/
def usePulpSext (c : BitVec 32) : Bool := c.getLsbD 2
/-- CFG0 bit 3 (10_state.md R21). -/
def implicitRet (c : BitVec 32) : Bool := c.getLsbD 3
/-- CFG0 bit 4 (10_state.md R21). -/
def pulpVectorTablePacket (c : BitVec 32) : Bool := c.getLsbD 4
/-- CFG0 bit 5 (10_state.md R21). -/
def compressFullBranchMap (c : BitVec 32) : Bool := c.getLsbD 5
/-- CFG0 bit 6 (10_state.md R21). -/
def pulpFraming (c : BitVec 32) : Bool := c.getLsbD 6
/-- The value a write of CFG0 leaves: bits 31:7 read 0 (10_state.md R21, 42_encoder_fsm.md R171). -/
def stored (c : BitVec 32) : BitVec 32 := c &&& 0x7F#32

end Cfg0

/-- BML(cnt): the map bits a packet with `cnt` outcomes serializes (40_accumulator.md R134). The rule gives it for 0 to
31; above that it is 31, for a packet that is not well-formed: the serializer rejects it by its count first (43_serializer.md
R231 check 5), and no bytes are read as one. DESIGN CHOICE (unsafe), log entry 19. -/
def bml (cnt : Nat) : Nat :=
  if cnt = 0 then 31
  else if cnt ≤ 1 then 1
  else if cnt ≤ 9 then 9
  else if cnt ≤ 17 then 17
  else if cnt ≤ 25 then 25
  else 31

/-- The packet kinds of the opcode table (10_state.md R41, 30_encoding.md R93 to R95); NOADDR kinds are
the BRANCH packets with `branches` 0 (30_encoding.md R111). -/
inductive PacketKind where
  | branchFull | branchFullNoaddr | branchDiff | branchDiffNoaddr | addrOnly
  | syncStart | syncException | syncContext | syncReserved
  | timer | software | reservedMsg0
deriving DecidableEq, Repr

/-- A packet's kind is read from its code fields (10_state.md R41). -/
def Packet.kind (p : Packet) : PacketKind :=
  if p.msgType = 0 then .reservedMsg0
  else if p.msgType = 1 then .timer
  else if p.msgType = 3 then .software
  else if p.format = 0 then (if p.branches = 0 then .branchFullNoaddr else .branchFull)
  else if p.format = 1 then (if p.branches = 0 then .branchDiffNoaddr else .branchDiff)
  else if p.format = 2 then .addrOnly
  else if p.subformat = 0 then .syncStart
  else if p.subformat = 1 then .syncException
  else if p.subformat = 2 then .syncContext
  else .syncReserved

namespace Packet

/-- The bundle whose every field is 0. -/
def zero : Packet := ⟨0, 0, 0, 0, 0, 0, 0, 0, 0, false, 0, false, 0, 0, 0⟩

/-- Trace/BRANCH_FULL with outcomes and an address (30_encoding.md R96). -/
def branchFull (branches : Nat) (branchMap : BitVec 31) (mapBits : Nat) (address : Word) (addrBits : Nat) : Packet :=
  { zero with msgType := 2, format := 0, branches := branches, branchMap := branchMap, mapBits := mapBits, address := address, addrBits := addrBits }

/-- Trace/BRANCH_FULL without address, `branches` 0 (30_encoding.md R96, R111). -/
def branchFullNoaddr (branchMap : BitVec 31) (mapBits : Nat) : Packet :=
  { zero with msgType := 2, format := 0, branchMap := branchMap, mapBits := mapBits }

/-- Trace/BRANCH_DIFF with outcomes and a differential (30_encoding.md R96). -/
def branchDiff (branches : Nat) (branchMap : BitVec 31) (mapBits : Nat) (address : Word) (addrBits : Nat) : Packet :=
  { zero with msgType := 2, format := 1, branches := branches, branchMap := branchMap, mapBits := mapBits, address := address, addrBits := addrBits }

/-- Trace/BRANCH_DIFF without address, `branches` 0 (30_encoding.md R104). -/
def branchDiffNoaddr (branchMap : BitVec 31) (mapBits : Nat) : Packet :=
  { zero with msgType := 2, format := 1, branchMap := branchMap, mapBits := mapBits }

/-- Trace/ADDR_ONLY (30_encoding.md R97). -/
def addrOnly (address : Word) (addrBits : Nat) : Packet :=
  { zero with msgType := 2, format := 2, address := address, addrBits := addrBits }

/-- Trace/SYNC/START; its `addr_bits` is XLEN (10_state.md R41, 30_encoding.md R99). -/
def syncStart (w : Nat) (privilege : BitVec 3) (branch : Bool) (address : Word) : Packet :=
  { zero with msgType := 2, format := 3, subformat := 0, privilege := privilege, branch := branch, address := address, addrBits := w }

/-- Trace/SYNC/EXCEPTION; its `addr_bits` is XLEN (10_state.md R41, 30_encoding.md R100). -/
def syncException (w : Nat) (privilege : BitVec 3) (branch : Bool) (address : Word) (cause : BitVec 5) (interrupt : Bool) (tval : Word) : Packet :=
  { zero with msgType := 2, format := 3, subformat := 1, privilege := privilege, branch := branch, address := address, addrBits := w, cause := cause, interrupt := interrupt, tval := tval }

/-- Trace/SYNC/CONTEXT, declared but unimplemented (30_encoding.md R101). -/
def syncContext (privilege : BitVec 3) : Packet :=
  { zero with msgType := 2, format := 3, subformat := 2, privilege := privilege }

/-- A SYNC packet with the reserved subformat 3 (30_encoding.md R95). -/
def syncReserved (privilege : BitVec 3) : Packet :=
  { zero with msgType := 2, format := 3, subformat := 3, privilege := privilege }

/-- Timer (30_encoding.md R103). -/
def timer (time : BitVec 64) : Packet := { zero with msgType := 1, time := time }

/-- Software (30_encoding.md R102). -/
def software (userdata : BitVec 32) : Packet := { zero with msgType := 3, userdata := userdata }

/-- The reserved message type 0 (30_encoding.md R93). -/
def reservedMsg0 : Packet := zero

end Packet

/-- The bundle with every field its kind does not use 0, and `addr_bits` XLEN in SYNC packets (10_state.md R41). -/
def Packet.canon (w : Nat) (p : Packet) : Packet :=
  match p.kind with
  | .branchFull => Packet.branchFull p.branches p.branchMap p.mapBits p.address p.addrBits
  | .branchFullNoaddr => Packet.branchFullNoaddr p.branchMap p.mapBits
  | .branchDiff => Packet.branchDiff p.branches p.branchMap p.mapBits p.address p.addrBits
  | .branchDiffNoaddr => Packet.branchDiffNoaddr p.branchMap p.mapBits
  | .addrOnly => Packet.addrOnly p.address p.addrBits
  | .syncStart => Packet.syncStart w p.privilege p.branch p.address
  | .syncException => Packet.syncException w p.privilege p.branch p.address p.cause p.interrupt p.tval
  | .syncContext => Packet.syncContext p.privilege
  | .syncReserved => Packet.syncReserved p.privilege
  | .timer => Packet.timer p.time
  | .software => Packet.software p.userdata
  | .reservedMsg0 => Packet.reservedMsg0

/-- The error a reserved or unimplemented kind raises in the serializer and the deserializer
(30_encoding.md R104, 43_serializer.md R231 checks 2 to 4, 44_deserializer.md R271). -/
def Packet.reservedError (p : Packet) : Option ErrCode :=
  match p.kind with
  | .reservedMsg0 => some .badPacket
  | .syncContext => some .unimplemented
  | .syncReserved => some .badPacket
  | _ => none

/-- Whether the kind has an address field (10_state.md R41). -/
def Packet.hasAddress (p : Packet) : Bool :=
  match p.kind with
  | .branchFull | .branchDiff | .addrOnly | .syncStart | .syncException => true
  | _ => false

/-- An instruction seen as a packet in a framing, with the kind its row names, or as a host operation. -/
inductive InstrForm where
  | plain (k : PacketKind) (u : PlainUse) (p : Packet)
  | pulp (k : PacketKind) (u : PulpUse) (p : Packet)
  | host
deriving DecidableEq, Repr

/-- The packet bundle, kind and framing of an instruction when XLEN is `w`. -/
def Instr.form (w : Nat) : Instr → InstrForm
  | .branchFullPlain u b m mb a ab => .plain .branchFull u (Packet.branchFull b m mb a ab)
  | .branchFullNoaddrPlain u m mb => .plain .branchFullNoaddr u (Packet.branchFullNoaddr m mb)
  | .branchDiffPlain u b m mb a ab => .plain .branchDiff u (Packet.branchDiff b m mb a ab)
  | .branchDiffNoaddrPlain u m mb => .plain .branchDiffNoaddr u (Packet.branchDiffNoaddr m mb)
  | .addrOnlyPlain u a ab => .plain .addrOnly u (Packet.addrOnly a ab)
  | .syncStartPlain u pr br a => .plain .syncStart u (Packet.syncStart w pr br a)
  | .syncExceptionPlain u pr br a c it tv => .plain .syncException u (Packet.syncException w pr br a c it tv)
  | .syncContextPlain u pr => .plain .syncContext u (Packet.syncContext pr)
  | .syncReservedPlain u pr => .plain .syncReserved u (Packet.syncReserved pr)
  | .timerPlain u t => .plain .timer u (Packet.timer t)
  | .softwarePlain u d => .plain .software u (Packet.software d)
  | .reservedMsg0Plain u => .plain .reservedMsg0 u Packet.reservedMsg0
  | .branchFullPulp u b m mb a ab => .pulp .branchFull u (Packet.branchFull b m mb a ab)
  | .branchFullNoaddrPulp u m mb => .pulp .branchFullNoaddr u (Packet.branchFullNoaddr m mb)
  | .branchDiffPulp u b m mb a ab => .pulp .branchDiff u (Packet.branchDiff b m mb a ab)
  | .branchDiffNoaddrPulp u m mb => .pulp .branchDiffNoaddr u (Packet.branchDiffNoaddr m mb)
  | .addrOnlyPulp u a ab => .pulp .addrOnly u (Packet.addrOnly a ab)
  | .syncStartPulp u pr br a => .pulp .syncStart u (Packet.syncStart w pr br a)
  | .syncExceptionPulp u pr br a c it tv => .pulp .syncException u (Packet.syncException w pr br a c it tv)
  | .syncContextPulp u pr => .pulp .syncContext u (Packet.syncContext pr)
  | .syncReservedPulp u pr => .pulp .syncReserved u (Packet.syncReserved pr)
  | .timerPulp u t => .pulp .timer u (Packet.timer t)
  | .softwarePulp u d => .pulp .software u (Packet.software d)
  | .reservedMsg0Pulp u => .pulp .reservedMsg0 u Packet.reservedMsg0
  | .opReset => .host
  | .opConfig _ _ => .host
  | .opStep _ => .host
  | .opEnd => .host
  | .opInject _ => .host
  | .opClearStatus => .host
  | .opRead => .host
  | .opSerPlain _ _ _ => .host
  | .opSerPulp _ => .host
  | .opDesPlain _ _ _ => .host
  | .opDesPulp _ => .host

/-- BITS(P), the plain bit length (30_encoding.md R107). The reserved kinds have none; theirs is the length
of the header fields of their opcode-table row. DESIGN CHOICE (safe), log entry 13. -/
def Packet.bitLen (w : Nat) (p : Packet) : Nat :=
  match p.kind with
  | .branchFull | .branchDiff => 9 + p.mapBits + p.addrBits
  | .branchFullNoaddr | .branchDiffNoaddr => 9 + p.mapBits
  | .addrOnly => 4 + p.addrBits
  | .syncStart => 12 + w
  | .syncException => 18 + 2 * w
  | .syncContext | .syncReserved => 11
  | .software => 2 + w
  | .timer => 66
  | .reservedMsg0 => 2

/-- BITS'(P), the body bits of the PULP framing (30_encoding.md R108): no tval unless P_PULP_TVAL is 1. -/
def Packet.pulpBodyLen (w : Nat) (tv : Bool) (p : Packet) : Nat :=
  match p.kind with
  | .syncException => 18 + w + (if tv then w else 0)
  | _ => p.bitLen w

/-- The bytes of a frame with `b` body bits, ceil((4 + b) / 8) (30_encoding.md R92), and at least the 2 of
the smallest length field. Every packet the serializer accepts has 9 bits or more with its length, so
the lower bound acts only on the reserved message type (log entry 13). -/
def frameBytes (b : Nat) : Nat := max 2 (bytesFor (pulpPktLen + b))

/-- The length field `len` of a frame with `b` body bits: its bytes less 2 (30_encoding.md R92, R108). -/
def frameLenOf (b : Nat) : Nat := frameBytes b - 2

/-- A value of the address field that the kept bits stand for (44_deserializer.md R282). -/
def signConsistent (w a : Nat) (address : Word) : Bool :=
  address == BitVec.ofNat 64 (sext w a (address.toNat % 2 ^ a))

/-- A BRANCH packet in the notation of 30_encoding.md R117, where `map_bits` may be left out when `branches` is 1 to 31,
and `addr_bits` when it is W. With `branches` 0 the rule gives no widths to fill in: `map_bits` is then 31, the full map
(R96), and `addr_bits`, which the kind does not use, is 0 as in the packets the block builds (10_state.md R41). With
`branches` above 31 the rule gives no `map_bits` either, and 31 is filled in; the serializer rejects such a packet by its
count (43_serializer.md R231 check 5). DESIGN CHOICE (unsafe), log entry 19. -/
def Packet.branchNote (w : Nat) (format : BitVec 2) (branches : Nat) (branchMap : BitVec 31) (mapBits : Option Nat)
    (address : Word) (addrBits : Option Nat) : Packet :=
  { Packet.zero with
    msgType := 2, format := format, branches := branches, branchMap := branchMap
    mapBits := mapBits.getD (bml branches), address := address
    addrBits := addrBits.getD (if branches = 0 then 0 else w) }

/-- An ADDR_ONLY packet in the notation of 30_encoding.md R117, where `addr_bits` may be left out. -/
def Packet.addrOnlyNote (w : Nat) (address : Word) (addrBits : Option Nat) : Packet :=
  Packet.addrOnly address (addrBits.getD w)

/-- The keys of the text stimulus (30_encoding.md R115). -/
inductive StimKey where
  | valid | exception | interrupt | cause | tval | priv | compressed | addr | instr
deriving DecidableEq, Repr

/-- The value a stimulus line gives a key: 0 for a missing key (30_encoding.md R115). The rule is silent on a key that
stands twice on a line; the first value is taken. DESIGN CHOICE (unsafe), log entry 18. -/
def stimValue (line : List (StimKey × Nat)) (k : StimKey) : Nat :=
  match line with
  | [] => 0
  | (k', v) :: rest => if k' = k then v else stimValue rest k

/-- A record in the text-stimulus syntax, its numbers already read (30_encoding.md R115); a one-bit
field keeps the low bit (10_state.md R24). -/
def Record.ofStimulus (line : List (StimKey × Nat)) : Record where
  valid := (stimValue line .valid).testBit 0
  exception := (stimValue line .exception).testBit 0
  interrupt := (stimValue line .interrupt).testBit 0
  cause := stimValue line .cause
  tval := stimValue line .tval
  priv := stimValue line .priv
  iaddr := stimValue line .addr
  instr := stimValue line .instr
  compressed := (stimValue line .compressed).testBit 0

/-- A record in the CSV form VALID,ADDRESS,INSN,PRIVILEGE,EXCEPTION,ECAUSE,TVAL,INTERRUPT, its numbers
already read: `compressed` is set when INSN[1:0] is not 0b11 (30_encoding.md R116). -/
def Record.ofCsv (valid address insn privilege exception ecause tval interrupt : Nat) : Record where
  valid := valid.testBit 0
  exception := exception.testBit 0
  interrupt := interrupt.testBit 0
  cause := ecause
  tval := tval
  priv := privilege
  iaddr := address
  instr := insn
  compressed := decide (insn % 4 ≠ 3)

end Sys2Proof
end

