-- ==== Sys2Proof/Machine/Packer.lean ====
section
/-! DEFINITION. The address packer (41_address_packer.md): sign-extendable bits, quantization, the choice of the
address form. -/

namespace Sys2Proof.Machine

/-- The length of the run of leading elements equal to the first one. -/
def leadRun : Bits → Nat
  | [] => 0
  | b :: t => 1 + (t.takeWhile (· == b)).length

/-- SEB_w(x): the leading bits of the w-bit value `x` equal to its most significant bit (R150). -/
def seb (w x : Nat) : Nat := leadRun (bitsOf w x).reverse

/-- Q(l): rounds a count down to 0, 9, 17 or 25 (R152). -/
def quantize (l : Nat) : Nat := if l < 9 then 0 else if l < 17 then 9 else if l < 25 then 17 else 25

/-- KEEP(l, w) = min(w, w - l + 1), for l up to w (R153). -/
def keep (l w : Nat) : Nat := min w (w + 1 - l)

/-- LEAD(x): the count the encoder uses for a W-bit value (R154). -/
def lead (usePulpSext : Bool) (w : Nat) (x : Word) : Nat :=
  if usePulpSext then quantize (seb w x.toNat) else seb w x.toNat

/-- PACK(full, diff): whether the differential form is used, and the bits to keep; a tie is absolute (R155). -/
def pack (usePulpSext : Bool) (w : Nat) (full diff : Word) : Bool × Nat :=
  if lead usePulpSext w full < lead usePulpSext w diff then (true, keep (lead usePulpSext w diff) w)
  else (false, keep (lead usePulpSext w full) w)

/-- ADDR_KEEP(d): the width of a differential ADDR_ONLY (R156). -/
def addrKeep (usePulpSext : Bool) (w : Nat) (d : Word) : Nat := keep (lead usePulpSext w d) w

/-- `(a - b) mod 2^XLEN` (00_scope.md R9). -/
def subX (w : Nat) (a b : Word) : Word := truncX w (a - b)

end Sys2Proof.Machine
end

