-- ==== Sys2Proof/WellFormed.lean ====
section
/-! DEFINITION. Well-formed instructions: the operand values that the encodings of 30_encoding.md admit. -/

namespace Sys2Proof

/-- The field values of a packet that its layout can carry and a reader gives back (30_encoding.md R96 to
R103, 44_deserializer.md R282): widths in range, addresses and compressed maps sign-consistent, values
within their fields. `tv` says whether a SYNC/EXCEPTION carries tval. -/
def Packet.fieldsOk (w : Nat) (tv : Bool) (p : Packet) : Bool :=
  match p.kind with
  | .branchFull | .branchDiff =>
    decide (1 ≤ p.branches ∧ p.branches ≤ 31) && decide (p.mapBits = bml p.branches)
      && decide (p.branchMap.toNat < 2 ^ p.mapBits)
      && decide (1 ≤ p.addrBits ∧ p.addrBits ≤ w) && signConsistent w p.addrBits p.address
  | .branchFullNoaddr | .branchDiffNoaddr =>
    decide (1 ≤ p.mapBits ∧ p.mapBits ≤ 31)
      && (p.branchMap == BitVec.ofNat 31 (sext 31 p.mapBits (p.branchMap.toNat % 2 ^ p.mapBits)))
  | .addrOnly => decide (1 ≤ p.addrBits ∧ p.addrBits ≤ w) && signConsistent w p.addrBits p.address
  | .syncStart => decide (p.address.toNat < 2 ^ w)
  | .syncException =>
    decide (p.address.toNat < 2 ^ w) && decide (p.tval.toNat < 2 ^ w) && (tv || p.tval == 0)
  | .syncContext | .syncReserved | .timer | .software | .reservedMsg0 => true

/-- In a frame with length nibble `len`, the variable field takes all the bits up to the frame's end, at
most W or 31 of them (44_deserializer.md R270, R282 (b)). -/
def Packet.fillsFrame (w : Nat) (len : Nat) (p : Packet) : Bool :=
  let n := 8 * (len + 2) - pulpPktLen
  match p.kind with
  | .branchFull | .branchDiff => decide (p.addrBits = min w (n - (9 + p.mapBits)))
  | .branchFullNoaddr | .branchDiffNoaddr => decide (p.mapBits = min 31 (n - 9))
  | .addrOnly => decide (p.addrBits = min w (n - 4))
  | _ => true

/-- Whether the use of a plain packet is in range: an alignment of 0 to 7 (20_memory.md R74), and to read
it the exact bit count (44_deserializer.md R280). -/
def PlainUse.ok (w : Nat) (p : Packet) : PlainUse → Bool
  | .write align _ => decide (align < 8)
  | .read align n => decide (align < 8) && decide (n = p.bitLen w)

/-- Whether the use of a PULP packet is in range: a length that fits the 4-bit field (43_serializer.md R244),
and to read it the nibble of its own frame, which its variable field fills. -/
def PulpUse.ok (w : Nat) (tv : Bool) (p : Packet) : PulpUse → Bool
  | .write => decide (frameLenOf (p.pulpBodyLen w tv) ≤ 15)
  | .read len => decide (len.toNat = frameLenOf (p.pulpBodyLen w tv)) && p.fillsFrame w len.toNat

/-- Well-formed in a configuration: `arch64` gives XLEN and `tv` is P_PULP_TVAL. -/
def Instr.wf (arch64 tv : Bool) (i : Instr) : Bool :=
  match i.form (xlen arch64) with
  | .plain k u p => decide (p.kind = k) && p.fieldsOk (xlen arch64) true && u.ok (xlen arch64) p
  | .pulp k u p => decide (p.kind = k) && p.fieldsOk (xlen arch64) tv && u.ok (xlen arch64) tv p
  | .host =>
    match i with
    | .opInject p => decide (p.msgType = 1 ∨ p.msgType = 3)
    | .opSerPlain _ align _ => decide (align < 8)
    | .opDesPlain _ align n => decide (align < 8) && decide (1 ≤ n)
    | _ => true

end Sys2Proof
end

