-- ==== Sys2Proof/Decode.lean ====
section
/-! DEFINITION. Decoding and encoding of packets: PARSE (44_deserializer.md), PLAIN and the PULP frame
(30_encoding.md, 43_serializer.md), and the instruction each stands for. -/

namespace Sys2Proof

/-! ## Decoding -/

/-- `require N >= k` of 44_deserializer.md R271: a packet that is too short is `bad_packet`. -/
def require {α : Type} (n k : Nat) (r : Except ErrCode α) : Except ErrCode α :=
  if n < k then .error .badPacket else r

/-- The address of a BRANCH or ADDR_ONLY packet at position `p`: all the remaining bits, at most W of
them, sign-extended (44_deserializer.md R270). -/
def readAddress (w : Nat) (s : Bits) (p : Nat) : Nat × Word :=
  let a := min w (s.length - p)
  (a, BitVec.ofNat 64 (sext w a (readBits s p a)))

/-- The map of a packet with `branches` 0: all the remaining bits, at most 31, sign-extended
(44_deserializer.md R270, R274). -/
def readFullMap (s : Bits) : Nat × BitVec 31 :=
  let m := min 31 (s.length - 9)
  (m, BitVec.ofNat 31 (sext 31 m (readBits s 9 m)))

/-- The BRANCH part of PARSE for format `f`, 0 or 1 (44_deserializer.md R271 to R274). -/
def parseBranch (w : Nat) (f : BitVec 2) (s : Bits) : Except ErrCode Packet :=
  require s.length 9 <|
    let b := readBits s 4 branchLen
    if b = 0 then
      require s.length 10 <|
        .ok { Packet.zero with msgType := 2, format := f, branchMap := (readFullMap s).2, mapBits := (readFullMap s).1 }
    else
      require s.length (9 + bml b + 1) <|
        .ok { Packet.zero with
              msgType := 2, format := f, branches := b
              branchMap := BitVec.ofNat 31 (readBits s 9 (bml b)), mapBits := bml b
              address := (readAddress w s (9 + bml b)).2, addrBits := (readAddress w s (9 + bml b)).1 }

/-- The SYNC part of PARSE (44_deserializer.md R271, R276, R277). The reserved bits 9..10 are ignored. The
bundles of subformats 2 and 3 are passed on; `deserialize` raises their errors. -/
def parseSync (w : Nat) (tv : Bool) (s : Bits) : Except ErrCode Packet :=
  require s.length 6 <|
    let priv := BitVec.ofNat 3 (readBits s 6 privLen)
    let branch := extBit s 11
    let address := BitVec.ofNat 64 (readBits s 12 w)
    match readBits s 4 subformatLen with
    | 0 => require s.length (12 + w) <| .ok (Packet.syncStart w priv branch address)
    | 1 => require s.length (18 + w + (if tv then w else 0)) <|
        .ok (Packet.syncException w priv branch address (BitVec.ofNat 5 (readBits s (12 + w) causeLen))
          (extBit s (17 + w)) (if tv then BitVec.ofNat 64 (readBits s (18 + w) w) else 0))
    | 2 => .ok (Packet.syncContext priv)
    | _ => .ok (Packet.syncReserved priv)

/-- PARSE(s, N, tv) of 44_deserializer.md R270 and R271, N being the string's length, but for the errors
of the reserved kinds, whose bundles it passes on. -/
def parse (w : Nat) (tv : Bool) (s : Bits) : Except ErrCode Packet :=
  require s.length 2 <|
    match readBits s 0 msgTypeLen with
    | 0 => .ok Packet.reservedMsg0
    | 1 => require s.length 66 <| .ok (Packet.timer (BitVec.ofNat 64 (readBits s 2 timeLen)))
    | 3 => require s.length (2 + w) <| .ok (Packet.software (BitVec.ofNat 32 (readBits s 2 w)))
    | _ =>
      require s.length 4 <|
        match readBits s 2 formatLen with
        | 0 => parseBranch w 0 s
        | 1 => parseBranch w 1 s
        | 2 => require s.length 5 <| .ok (Packet.addrOnly (readAddress w s 4).2 (readAddress w s 4).1)
        | _ => parseSync w tv s

/-- PARSE with the errors of the reserved kinds (44_deserializer.md R271). -/
def deserialize (w : Nat) (tv : Bool) (s : Bits) : Except ErrCode Packet :=
  match parse w tv s with
  | .error e => .error e
  | .ok p =>
    match p.reservedError with
    | some e => .error e
    | none => .ok p

/-- The packet bits of a plain read, or the error of its operand checks (44_deserializer.md R280). -/
def plainBits (bytes : List Byte) (align n : Nat) : Except ErrCode Bits :=
  if 8 ≤ align then .error .invalid
  else if bytes.length < bytesFor (align + n) then .error .badPacket
  else .ok (((ofBytes bytes).drop align).take n)

/-- The length nibble of a frame: the low 4 bits of its first byte (44_deserializer.md R281). -/
def frameLen (b : Byte) : BitVec 4 := b.truncate 4

/-- The length nibble and the body bits of a PULP frame, or the error of its length checks
(44_deserializer.md R281). -/
def frameBits (bytes : List Byte) : Except ErrCode (BitVec 4 × Bits) :=
  match bytes with
  | [] => .error .badPacket
  | b :: _ =>
    let len := frameLen b
    if bytes.length < len.toNat + 2 then .error .badPacket
    else .ok (len, (ofBytes (bytes.take (len.toNat + 2))).drop 4)

/-- The plain-framing instruction of a bundle: its opcode-table row. -/
def Packet.plainInstr (u : PlainUse) (p : Packet) : Instr :=
  match p.kind with
  | .branchFull => .branchFullPlain u p.branches p.branchMap p.mapBits p.address p.addrBits
  | .branchFullNoaddr => .branchFullNoaddrPlain u p.branchMap p.mapBits
  | .branchDiff => .branchDiffPlain u p.branches p.branchMap p.mapBits p.address p.addrBits
  | .branchDiffNoaddr => .branchDiffNoaddrPlain u p.branchMap p.mapBits
  | .addrOnly => .addrOnlyPlain u p.address p.addrBits
  | .syncStart => .syncStartPlain u p.privilege p.branch p.address
  | .syncException => .syncExceptionPlain u p.privilege p.branch p.address p.cause p.interrupt p.tval
  | .syncContext => .syncContextPlain u p.privilege
  | .syncReserved => .syncReservedPlain u p.privilege
  | .timer => .timerPlain u p.time
  | .software => .softwarePlain u p.userdata
  | .reservedMsg0 => .reservedMsg0Plain u

/-- The PULP-framing instruction of a bundle: its opcode-table row. -/
def Packet.pulpInstr (u : PulpUse) (p : Packet) : Instr :=
  match p.kind with
  | .branchFull => .branchFullPulp u p.branches p.branchMap p.mapBits p.address p.addrBits
  | .branchFullNoaddr => .branchFullNoaddrPulp u p.branchMap p.mapBits
  | .branchDiff => .branchDiffPulp u p.branches p.branchMap p.mapBits p.address p.addrBits
  | .branchDiffNoaddr => .branchDiffNoaddrPulp u p.branchMap p.mapBits
  | .addrOnly => .addrOnlyPulp u p.address p.addrBits
  | .syncStart => .syncStartPulp u p.privilege p.branch p.address
  | .syncException => .syncExceptionPulp u p.privilege p.branch p.address p.cause p.interrupt p.tval
  | .syncContext => .syncContextPulp u p.privilege
  | .syncReserved => .syncReservedPulp u p.privilege
  | .timer => .timerPulp u p.time
  | .software => .softwarePulp u p.userdata
  | .reservedMsg0 => .reservedMsg0Pulp u

/-- The instruction of a request: an operation as it is, an encoded packet as the row it decodes to. A
word too short for the fields its header announces is rejected with the deserializer's error. -/
def decode (arch64 tv : Bool) : Request → Except ErrCode Instr
  | .op i => .ok i
  | .plain bytes align n =>
    match plainBits bytes align n with
    | .error e => .error e
    | .ok s =>
      match parse (xlen arch64) true s with
      | .error e => .error e
      | .ok p => .ok (p.plainInstr (.read align n))
  | .pulp bytes =>
    match frameBits bytes with
    | .error e => .error e
    | .ok (len, s) =>
      match parse (xlen arch64) tv s with
      | .error e => .error e
      | .ok p => .ok (p.pulpInstr (.read len))

/-! ## Encoding -/

/-- The bits of a packet: PLAIN(P) with `tv` true, PULPBODY(P) with `tv` the parameter P_PULP_TVAL
(30_encoding.md R91, R92, R96 to R103; 43_serializer.md R232 to R241). Each field is cut to its width
(43_serializer.md R230). The reserved kinds have no layout (R101, R104): theirs are the header fields of
their opcode-table row, which no serializer writes (log entry 13). -/
def packetBits (w : Nat) (tv : Bool) (p : Packet) : Bits :=
  match p.kind with
  | .branchFull =>
    bitsOf msgTypeLen 2 ++ bitsOf formatLen 0 ++ bitsOf branchLen p.branches ++ bitsOf (bml p.branches) p.branchMap.toNat
      ++ bitsOf p.addrBits p.address.toNat
  | .branchDiff =>
    bitsOf msgTypeLen 2 ++ bitsOf formatLen 1 ++ bitsOf branchLen p.branches ++ bitsOf (bml p.branches) p.branchMap.toNat
      ++ bitsOf p.addrBits p.address.toNat
  | .branchFullNoaddr =>
    bitsOf msgTypeLen 2 ++ bitsOf formatLen 0 ++ bitsOf branchLen 0 ++ bitsOf p.mapBits p.branchMap.toNat
  | .branchDiffNoaddr =>
    bitsOf msgTypeLen 2 ++ bitsOf formatLen 1 ++ bitsOf branchLen 0 ++ bitsOf p.mapBits p.branchMap.toNat
  | .addrOnly => bitsOf msgTypeLen 2 ++ bitsOf formatLen 2 ++ bitsOf p.addrBits p.address.toNat
  | .syncStart =>
    bitsOf msgTypeLen 2 ++ bitsOf formatLen 3 ++ bitsOf subformatLen 0 ++ bitsOf privLen p.privilege.toNat
      ++ bitsOf syncRsvLen 0 ++ [p.branch] ++ bitsOf w p.address.toNat
  | .syncException =>
    bitsOf msgTypeLen 2 ++ bitsOf formatLen 3 ++ bitsOf subformatLen 1 ++ bitsOf privLen p.privilege.toNat
      ++ bitsOf syncRsvLen 0 ++ [p.branch] ++ bitsOf w p.address.toNat ++ bitsOf causeLen p.cause.toNat ++ [p.interrupt]
      ++ (if tv then bitsOf w p.tval.toNat else [])
  | .syncContext =>
    bitsOf msgTypeLen 2 ++ bitsOf formatLen 3 ++ bitsOf subformatLen 2 ++ bitsOf privLen p.privilege.toNat ++ bitsOf syncRsvLen 0
  | .syncReserved =>
    bitsOf msgTypeLen 2 ++ bitsOf formatLen 3 ++ bitsOf subformatLen 3 ++ bitsOf privLen p.privilege.toNat ++ bitsOf syncRsvLen 0
  | .timer => bitsOf msgTypeLen 1 ++ bitsOf timeLen p.time.toNat
  | .software => bitsOf msgTypeLen 3 ++ bitsOf w p.userdata.toNat
  | .reservedMsg0 => bitsOf msgTypeLen 0

/-- FRAME(P) of a body: the length field, the body, and copies of the body's last bit up to whole bytes
(30_encoding.md R92, 43_serializer.md R243). -/
def frameOf (b : Bits) : Bits :=
  bitsOf pulpPktLen (frameLenOf b.length) ++ b
    ++ List.replicate (8 * frameBytes b.length - (pulpPktLen + b.length)) (b.getLastD false)

/-- The word that stands for an instruction on the operation port. A packet to be read is its encoded
bytes, with 0 bits before its alignment; every other instruction has no bit encoding (30_encoding.md R112). -/
def encode (arch64 tv : Bool) (i : Instr) : Request :=
  match i.form (xlen arch64) with
  | .plain _ (.read align n) p => .plain (toBytes (bitsOf align 0 ++ packetBits (xlen arch64) true p)) align n
  | .pulp _ (.read _) p => .pulp (toBytes (frameOf (packetBits (xlen arch64) tv p)))
  | .plain _ (.write _ _) _ => .op i
  | .pulp _ .write _ => .op i
  | .host => .op i

/-! ## Words of the opcode table -/

/-- The request for a word of the opcode table, whose operand bits past `nbits` are 0. The table's words
do not name their framing: a word that has the reserved message type 0 as a plain packet, and is not 0, is
taken as a PULP frame, any other as a plain packet at alignment 0. A plain packet gets the bit count of the
packet that the bits and zeros stand for, with its variable field at full width. A PULP word whose length
nibble is 0 (the table leaves bits 0..3 to `len = F/8 - 2`) gets the length of that packet's frame.
DESIGN CHOICE (safe), log entry 3. -/
def tableRequest (arch64 tv : Bool) (nbits w : Nat) : Request :=
  let v := w % 2 ^ nbits
  let x := xlen arch64
  if v % 4 = 0 ∧ v ≠ 0 then
    let body := bitsOf 148 (v / 16)
    let len :=
      if v % 16 ≠ 0 then v % 16
      else
        match parse x tv body with
        | .ok p => frameLenOf (p.pulpBodyLen x tv)
        | .error _ => 0
    .pulp (packBytes (len + 2) (bitsOf pulpPktLen len ++ body))
  else
    let s := bitsOf 146 v
    let n :=
      match parse x true s with
      | .ok p => p.bitLen x
      | .error _ => 146
    .plain (toBytes (s.take n)) 0 n

/-- The instruction the decoder reads from a word of the opcode table in the reset configuration. -/
def decodeTableWord (nbits w : Nat) : Option Instr :=
  match decode false false (tableRequest false false nbits w) with
  | .ok i => some i
  | .error _ => none

end Sys2Proof
end

