-- ==== Sys2Proof/Machine/Classifier.lean ====
section
/-! DEFINITION. CLASSIFY as a parameter (00_scope.md R6) and the reference decoding G1 of
93_implementation_defined.md. -/

namespace Sys2Proof

/-- Whether a line of a classifier holds for a word and an `implicit_ret`. -/
def ClassRule.holds (r : ClassRule) (w : Word) (implicitRet : Bool) : Bool :=
  (w &&& r.mask == r.value) && (r.implicitRet == none || r.implicitRet == some implicitRet)

/-- The class of every other word: none of the three (G1, last row). -/
def Classes.plainInstr : Classes := ⟨false, false, false⟩

/-- CLASSIFY (00_scope.md R6): the answers of the first line that holds. -/
def classify : List ClassRule → Word → Bool → Classes
  | [], _, _ => Classes.plainInstr
  | r :: rest, w, ir => if r.holds w ir then r.classes else classify rest w ir

/-- A line for a conditional branch. -/
def branchRule (mask value : Word) : ClassRule := ⟨mask, value, none, ⟨true, false, false⟩⟩
/-- A line for an unpredictable discontinuity. -/
def unpredRule (mask value : Word) : ClassRule := ⟨mask, value, none, ⟨false, true, false⟩⟩
/-- A line for a word of none of the classes, under the given `implicit_ret`. -/
def plainRule (mask value : Word) (ir : Option Bool) : ClassRule := ⟨mask, value, ir, Classes.plainInstr⟩

/-- The reference decoding G1 of 93_implementation_defined.md. PRESUMED (unsafe): general knowledge, the PULP
encodings "recollection uncertain"; it is only the classifier that the reset state names. Log entry 6. -/
def referenceClassifier : List ClassRule :=
  [ -- with implicit_ret, ret and c.ret are predictable
    plainRule 0xFFFFFFFFFFFFFFFF 0x8067 (some true)
  , plainRule 0xFFFFFFFFFFFFFFFF 0x8082 (some true)
    -- opcode 0x63: the six branches, p.beqimm (funct3 010) and p.bneimm (funct3 011)
  , branchRule 0x7F 0x63
    -- c.beqz and c.bnez
  , branchRule 0xE003 0xC001
  , branchRule 0xE003 0xE001
    -- jalr
  , unpredRule 0x707F 0x67
    -- mret, sret, uret
  , unpredRule 0xFFFFFFFFFFFFFFFF 0x30200073
  , unpredRule 0xFFFFFFFFFFFFFFFF 0x10200073
  , unpredRule 0xFFFFFFFFFFFFFFFF 0x00200073
    -- c.jr and c.jalr need rs1 != 0; with rs1 = 0 the words are none of the classes
  , plainRule 0xFFFF 0x8002 none
  , plainRule 0xFFFF 0x9002 none
  , unpredRule 0xF07F 0x8002
  , unpredRule 0xF07F 0x9002
    -- the PULP hardware-loop setup forms, opcode 0x7B
  , ⟨0x7F, 0x7B, none, ⟨false, false, true⟩⟩ ]

/-- The parameters of the reset state: the spec's defaults (00_scope.md R7). DESIGN CHOICE (unsafe), log
entries 6 and 7. -/
def Params.default : Params := ⟨false, 64, referenceClassifier⟩

end Sys2Proof
end

