-- ==== Sys2Proof/Machine/State.lean ====
section
/-! DEFINITION. The state of the block (10_state.md R20), its ports (R42), the outcomes' reasons and reset. -/

namespace Sys2Proof.Machine

/-- The faults of a step. There is none: every error of the block is a status code that its operation answers
(60_exceptions.md R304), which is a next state. Safe: nothing is left out. -/
inductive Fault where
deriving DecidableEq, Repr

/-- The refusals of a step. -/
inductive Refusal where
  /-- An instruction without a meaning: raised by exec's arm for it and by nothing else; no arm does. Safe. -/
  | notModelled (mnemonic : String)
deriving DecidableEq, Repr

/-- A window slot (10_state.md R25). -/
structure Slot where
  q : Bool
  exception : Bool
  interrupt : Bool
  cause : BitVec 5
  tval : Word
  priv : BitVec 3
  iaddr : Word
  instr : Word
  compressed : Bool
  isBranch : Bool
  unpredDisc : Bool
  privilegeChange : Bool
  ees : Bool
deriving DecidableEq, Repr

/-- The empty slot EMPTY, every field 0 (10_state.md R27). -/
def Slot.empty : Slot := ⟨false, false, false, 0, 0, 0, 0, 0, false, false, false, false, false⟩

/-- The branch-map accumulator (10_state.md R28). -/
structure BranchMap where
  bits : BitVec 31
  cnt : BitVec 5
deriving DecidableEq, Repr

/-- The accumulator at reset (10_state.md R28, 40_accumulator.md R130). -/
def BranchMap.empty : BranchMap := ⟨0, 0⟩

/-- The statistics counters (10_state.md R34), each a natural below 2^STATW; `sextHist` has 64 buckets.
DEDUCED (safe), log entry 15. -/
structure Stats where
  instrs : Nat
  pktBranchFull : Nat
  pktBranchDiff : Nat
  pktAddrOnly : Nat
  pktSyncStart : Nat
  pktSyncException : Nat
  pktSoftware : Nat
  pktTimer : Nat
  payloadBits : Nat
  pulpBits : Nat
  addrZero : Nat
  addrOnes : Nat
  sextHist : List Nat
deriving DecidableEq, Repr

/-- Every counter 0 (70_reset_and_hazards.md R341). -/
def Stats.zero : Stats := ⟨0, 0, 0, 0, 0, 0, 0, 0, 0, 0, 0, 0, List.replicate 64 0⟩

/-- A serializer result: the bytes, and in the plain framing the bit count (10_state.md R42,
43_serializer.md R242 and R243). -/
structure SerOut where
  bytes : List Byte
  n : Option Nat
deriving DecidableEq, Repr

/-- A deserializer result: the packet, the bytes consumed, and in the plain framing the start of the next
packet (10_state.md R42, 44_deserializer.md R280 and R281). -/
structure DesOut where
  packet : Packet
  consumed : Nat
  nextAlign : Option Nat
deriving DecidableEq, Repr

/-- What OP_READ returns (10_state.md R35, 42_encoder_fsm.md R170). -/
structure ReadOut where
  cfg0 : BitVec 32
  cfg1 : BitVec 32
  map : BranchMap
  lastIaddr : Word
  wrAlign : BitVec 3
  wrCarry : BitVec 7
  status : ErrCode
  stats : Stats
deriving DecidableEq, Repr

/-- The output ports that carry one operation's answer (10_state.md R42). DESIGN CHOICE (safe), log entry
4: they show the last operation's answer, and a port it does not use shows nothing. -/
structure Ports where
  result : ErrCode
  ser : Option SerOut
  des : Option DesOut
  read : Option ReadOut
deriving DecidableEq, Repr

/-- The ports of an operation that answers OK and nothing else. -/
def Ports.ok : Ports := ⟨.noError, none, none, none⟩

/-- The state: the block's own (10_state.md R20), its ports (R42) and its parameters (00_scope.md R7).
The host takes entries from the two output queues between steps (log entry 5); XLEN-bit values are stored in 64 bits
(log entry 17). -/
structure State where
  params : Params
  cfg0 : BitVec 32
  cfg1 : BitVec 32
  lastSlot : Slot
  thisSlot : Slot
  nextSlot : Slot
  map : BranchMap
  lastIaddr : Word
  resyncCnt : BitVec 32
  resyncPend : Bool
  wrAlign : BitVec 3
  wrCarry : BitVec 7
  status : ErrCode
  stats : Stats
  packetOut : List Packet
  byteOut : List Byte
  ports : Ports
  opIn : List Request
deriving DecidableEq, Repr

/-- Power-on: the reset state with both output queues empty (70_reset_and_hazards.md R341, R343). The ports
show an OK and no request is pending (log entries 2 and 14); the parameters are the spec's defaults and the
reference classifier (log entries 6 and 7). -/
def State.reset : State where
  params := Params.default
  cfg0 := 0
  cfg1 := 0
  lastSlot := Slot.empty
  thisSlot := Slot.empty
  nextSlot := Slot.empty
  map := BranchMap.empty
  lastIaddr := 0
  resyncCnt := 0
  resyncPend := false
  wrAlign := 0
  wrCarry := 0
  status := .noError
  stats := Stats.zero
  packetOut := []
  byteOut := []
  ports := Ports.ok
  opIn := []

end Sys2Proof.Machine
end

