-- ==== Sys2Proof/Machine/Accumulator.lean ====
section
/-! DEFINITION. The branch-map accumulator (40_accumulator.md). -/

namespace Sys2Proof.Machine

/-- `instr_len`: 2 for a compressed instruction, else 4 (R132). -/
def Slot.instrLen (s : Slot) : Word := if s.compressed then 2 else 4

/-- The taken test: the branch was not taken when the next record sits at its static successor (R132). -/
def notTaken (w : Nat) (this next : Slot) : Bool := truncX w (this.iaddr + this.instrLen) == next.iaddr

/-- `map.full`: 31 outcomes (10_state.md R28). -/
def BranchMap.full (m : BranchMap) : Bool := m.cnt == 31

/-- ACC_RECORD(b): bit `cnt` takes the outcome, 1 for not taken, and the count goes up (R131, R133). Its
precondition is a count of 30 or less; at 31 no bit is written and the 5-bit count wraps (log entry 9). -/
def BranchMap.record (m : BranchMap) (b : Bool) : BranchMap where
  bits := if b then m.bits ||| (1#31 <<< m.cnt.toNat) else m.bits &&& ~~~(1#31 <<< m.cnt.toNat)
  cnt := m.cnt + 1

/-- FULLMAP_BITS(bits): the map width of the full-map packet (R135). -/
def fullmapBits (compress : Bool) (bits : BitVec 31) : Nat :=
  if compress then 31 - min 31 (seb 32 (bits.toNat * 2 % 2 ^ 32)) + 1 else 31

end Sys2Proof.Machine
end

