-- ==== Sys2Proof/Machine/Flags.lean ====
section
/-! DEFINITION. The flags of 10_state.md R37, the reserved flags that read 0, and the triggers of the emit
decision table (42_encoder_fsm.md R183 to R191). -/

namespace Sys2Proof.Machine

/-- `halt` is not stored; it reads 0 in every slot (10_state.md R25, 42_encoder_fsm.md R178). -/
def Slot.halt (_ : Slot) : Bool := false
/-- `unhalted` is not stored; it reads 0 in every slot (R178). -/
def Slot.unhalted (_ : Slot) : Bool := false
/-- `context_change` is not stored; it reads 0 in every slot (R178). -/
def Slot.contextChange (_ : Slot) : Bool := false

namespace State

/-- XLEN in the state's configuration (10_state.md R21). -/
def xlen (s : State) : Nat := Sys2Proof.xlen (Cfg0.arch64 s.cfg0)

/-- SYNC_BRANCH_BIT: `this` is a branch that was not taken (42_encoder_fsm.md R182). -/
def syncBranchBit (s : State) : Bool :=
  s.thisSlot.isBranch && s.nextSlot.q && notTaken s.xlen s.thisSlot s.nextSlot

/-- Row 1: the record before took an exception (R184). -/
def trigger1 (s : State) : Bool := s.lastSlot.exception
/-- Row 2: the record before got a SYNC/EXCEPTION, and the option is on (R185). -/
def trigger2 (s : State) : Bool := s.lastSlot.ees && Cfg0.pulpVectorTablePacket s.cfg0
/-- Row 3: first qualification or privilege change, and the inert unhalt and resync conditions (R186, R178).
`resync_pend` is read from the state, where it is always 0 (10_state.md R31; log entry 11). -/
def trigger3 (s : State) : Bool :=
  !s.lastSlot.q || s.thisSlot.unhalted || s.thisSlot.privilegeChange || (s.resyncPend && s.map.cnt == 0)
/-- Row 4: the record before was an unpredictable discontinuity (R187). -/
def trigger4 (s : State) : Bool := s.lastSlot.unpredDisc
/-- Row 5: a pending resync with outcomes in the map; never true (R188, R178). -/
def trigger5 (s : State) : Bool := s.resyncPend && s.map.cnt != 0
/-- Row 6: the record after is a halt, an exception, a privilege change or no record (R189). -/
def trigger6 (s : State) : Bool :=
  s.nextSlot.halt || s.nextSlot.exception || s.nextSlot.privilegeChange || !s.nextSlot.q
/-- Row 7: the map is full (R190). -/
def trigger7 (s : State) : Bool := s.map.full
/-- Row 8: a context change; never true (R191, R178). -/
def trigger8 (s : State) : Bool := s.thisSlot.contextChange

end State

/-- The rows of the emit decision table (42_encoder_fsm.md R183). -/
inductive EmitRow where
  | row1 | row2 | row3 | row4 | row5 | row6 | row7 | row8
deriving DecidableEq, Repr

/-- The first row whose trigger holds (R183), or none (R192). -/
def selectRow (s : State) : Option EmitRow :=
  if s.trigger1 then some .row1
  else if s.trigger2 then some .row2
  else if s.trigger3 then some .row3
  else if s.trigger4 then some .row4
  else if s.trigger5 then some .row5
  else if s.trigger6 then some .row6
  else if s.trigger7 then some .row7
  else if s.trigger8 then some .row8
  else none

end Sys2Proof.Machine
end

