-- ==== Sys2Proof/Machine/Serializer.lean ====
section
/-! DEFINITION. The packet serializer (43_serializer.md): validation and the two framings. -/

namespace Sys2Proof.Machine

/-- Checks 2 to 6 of R231 in their order: the first error that applies. -/
def validate (w : Nat) (p : Packet) : Option ErrCode :=
  match p.reservedError with
  | some e => some e
  | none =>
    match p.kind with
    | .branchFull | .branchDiff =>
      if 31 < p.branches then some .badPacket
      else if p.mapBits ≠ bml p.branches ∨ p.addrBits < 1 ∨ w < p.addrBits then some .badPacket
      else none
    | .branchFullNoaddr | .branchDiffNoaddr =>
      if p.mapBits < 1 ∨ 31 < p.mapBits then some .badPacket else none
    | .addrOnly => if p.addrBits < 1 ∨ w < p.addrBits then some .badPacket else none
    | _ => none

/-- F_SER_PLAIN(P, align, carry): the bytes that hold the carry's low `align` bits and then the packet, and
the packet's bit count (R242). -/
def serPlain (w : Nat) (p : Packet) (align : Nat) (carry : Byte) : Except ErrCode (List Byte × Nat) :=
  if 8 ≤ align then .error .invalid
  else
    match validate w p with
    | some e => .error e
    | none => .ok (toBytes (bitsOf align carry.toNat ++ packetBits w true p), p.bitLen w)

/-- F_SER_PULP(P): the bytes of the frame, unless its length does not fit 4 bits (R243, R244). -/
def serPulp (w : Nat) (tv : Bool) (p : Packet) : Except ErrCode (List Byte) :=
  match validate w p with
  | some e => .error e
  | none =>
    let b := packetBits w tv p
    if 15 < frameLenOf b.length then .error .badPacket else .ok (toBytes (frameOf b))

end Sys2Proof.Machine
end

