-- ==== Sys2Proof/Machine/Ops.lean ====
section
/-! DEFINITION. The shared operations: error entry and return, the answers of operations, reset, statistics,
the stream writer, emission, and taking the next request. -/

namespace Sys2Proof.Machine

namespace State

/-- Taking an error (60_exceptions.md R304, R305, R314): the operation ends, the result port answers the
code, STATUS takes it, every other piece of state is as it was before the operation, but for the
statistics increments already made, which `stats` holds. -/
def raise (before : State) (e : ErrCode) (stats : Stats) : State :=
  { before with status := e, stats := stats, ports := ⟨e, none, none, none⟩ }

/-- Taking an error before any statistics update point (60_exceptions.md R304, R314). -/
def fail (before : State) (e : ErrCode) : State := before.raise e before.stats

/-- Return from an error (60_exceptions.md R306): STATUS is NONE again; nothing else changes. -/
def clearStatus (s : State) : State := { s with status := .noError }

/-- The operation answers OK (10_state.md R42). -/
def done (s : State) : State := { s with ports := Ports.ok }

/-- The operation answers OK and a serializer result (10_state.md R42). -/
def doneSer (s : State) (o : SerOut) : State := { s with ports := ⟨.noError, some o, none, none⟩ }

/-- The operation answers OK and a deserializer result (10_state.md R42). -/
def doneDes (s : State) (o : DesOut) : State := { s with ports := ⟨.noError, none, some o, none⟩ }

/-- The operation answers OK and the registers (10_state.md R42). -/
def doneRead (s : State) (o : ReadOut) : State := { s with ports := ⟨.noError, none, none, some o⟩ }

/-- The values OP_READ returns (10_state.md R35). -/
def readView (s : State) : ReadOut :=
  ⟨s.cfg0, s.cfg1, s.map, s.lastIaddr, s.wrAlign, s.wrCarry, s.status, s.stats⟩

/-- The writes of OP_RESET and OP_CONFIG (70_reset_and_hazards.md R340, R342, 42_encoder_fsm.md R171): all
state but the output queues; the parameters and the pending requests are not the operation's to write. -/
def configure (s : State) (cfg0 cfg1 : BitVec 32) : State :=
  { s with
    cfg0 := cfg0, cfg1 := cfg1
    lastSlot := Slot.empty, thisSlot := Slot.empty, nextSlot := Slot.empty
    map := BranchMap.empty, lastIaddr := 0, resyncCnt := 0, resyncPend := false
    wrAlign := 0, wrCarry := 0, status := .noError, stats := Stats.zero }

end State

/-- Adds to a counter of width STATW, wrapping (10_state.md R34). -/
def bump (statw c k : Nat) : Nat := (c + k) % 2 ^ statw

/-- Adds to one bucket of the histogram. -/
def bumpAt (statw : Nat) : List Nat → Nat → List Nat
  | [], _ => []
  | c :: t, 0 => bump statw c 1 :: t
  | c :: t, i + 1 => c :: bumpAt statw t i

/-- The PULP frame length in bits, by a dry serialization, or 0 if it would fail (10_state.md R34). -/
def pulpFrameBits (w : Nat) (tv : Bool) (p : Packet) : Nat :=
  match serPulp w tv p with
  | .ok bytes => 8 * bytes.length
  | .error _ => 0

/-- The histogram bucket of an emitted packet: keep - 1, where the packer chose the address width, which is in
the flush packets with an address and without `full_address` (10_state.md R34, 41_address_packer.md R155, R156;
log entry 16). -/
def packerBucket (fullAddress : Bool) (p : Packet) : Option Nat :=
  if fullAddress then none
  else
    match p.kind with
    | .branchFull | .branchDiff | .addrOnly => some (p.addrBits - 1)
    | _ => none

/-- The counter of the packet's kind (10_state.md R34); BRANCH packets count by their format. -/
def Stats.countKind (statw : Nat) (k : PacketKind) (t : Stats) : Stats :=
  match k with
  | .branchFull | .branchFullNoaddr => { t with pktBranchFull := bump statw t.pktBranchFull 1 }
  | .branchDiff | .branchDiffNoaddr => { t with pktBranchDiff := bump statw t.pktBranchDiff 1 }
  | .addrOnly => { t with pktAddrOnly := bump statw t.pktAddrOnly 1 }
  | .syncStart => { t with pktSyncStart := bump statw t.pktSyncStart 1 }
  | .syncException => { t with pktSyncException := bump statw t.pktSyncException 1 }
  | .software => { t with pktSoftware := bump statw t.pktSoftware 1 }
  | .timer => { t with pktTimer := bump statw t.pktTimer 1 }
  | .syncContext | .syncReserved | .reservedMsg0 => t

/-- The statistics after one emitted packet (10_state.md R34, 42_encoder_fsm.md R203). -/
def Stats.countPacket (params : Params) (cfg0 : BitVec 32) (p : Packet) (t : Stats) : Stats :=
  let w := xlen (Cfg0.arch64 cfg0)
  let u := t.countKind params.statw p.kind
  { u with
    payloadBits := bump params.statw u.payloadBits (p.bitLen w)
    pulpBits := bump params.statw u.pulpBits (pulpFrameBits w params.pulpTval p)
    addrZero := if p.hasAddress && truncX w p.address == 0 then bump params.statw u.addrZero 1 else u.addrZero
    addrOnes :=
      if p.hasAddress && truncX w p.address == truncX w (~~~0#64) then bump params.statw u.addrOnes 1 else u.addrOnes
    sextHist :=
      match packerBucket (Cfg0.fullAddress cfg0) p with
      | some i => bumpAt params.statw u.sextHist i
      | none => u.sextHist }

/-- The statistics after a record entered the window (10_state.md R34, 42_encoder_fsm.md R174). -/
def Stats.countInstr (statw : Nat) (t : Stats) : Stats := { t with instrs := bump statw t.instrs 1 }

/-- What the stream writer does for one packet: the bytes it appends and the carry it keeps. -/
structure Written where
  bytes : List Byte
  align : BitVec 3
  carry : BitVec 7
deriving DecidableEq, Repr

/-- The plain stream writer (20_memory.md R75). -/
def writePlain (w : Nat) (p : Packet) (align : BitVec 3) (carry : BitVec 7) : Except ErrCode Written :=
  match serPlain w p align.toNat (carry.zeroExtend 8) with
  | .error e => .error e
  | .ok (bytes, n) =>
    let total := align.toNat + n
    let whole := total / 8
    if total % 8 = 0 then .ok ⟨bytes.take whole, 0, 0⟩
    else .ok ⟨bytes.take whole, BitVec.ofNat 3 (total % 8), (bytes.getD whole 0).truncate 7⟩

/-- The stream writer of the configured framing (20_memory.md R75, R76, 42_encoder_fsm.md R203). -/
def writePacket (s : State) (p : Packet) : Except ErrCode Written :=
  if Cfg0.pulpFraming s.cfg0 then
    match serPulp s.xlen s.params.pulpTval p with
    | .error e => .error e
    | .ok bytes => .ok ⟨bytes, s.wrAlign, s.wrCarry⟩
  else writePlain s.xlen p s.wrAlign s.wrCarry

/-- The flush of the writer by OP_END: a started byte is handed out, padded with 0 bits (20_memory.md R77). -/
def State.flushWriter (s : State) : State :=
  if s.wrAlign = 0 then s
  else { s with byteOut := s.byteOut ++ [s.wrCarry.zeroExtend 8], wrAlign := 0, wrCarry := 0 }

/-- Emission of a packet by an operation that began in `before` (42_encoder_fsm.md R203, R175): the statistics
are updated, then the packet is written and queued and `finish` completes the operation, or the operation ends
with the writer's error, keeping the statistics (60_exceptions.md R314). -/
def emitPacket (before s : State) (p : Packet) (finish : State → State) : State :=
  let stats := s.stats.countPacket s.params s.cfg0 p
  match writePacket s p with
  | .error e => before.raise e stats
  | .ok wr =>
    (finish { s with
      stats := stats, byteOut := s.byteOut ++ wr.bytes, wrAlign := wr.align, wrCarry := wr.carry
      packetOut := s.packetOut ++ [p] }).done

/-- The next request of the operation port, read as an instruction (10_state.md R42; log entry 2). -/
inductive Fetched where
  /-- No request is pending: the block waits (70_reset_and_hazards.md R343). -/
  | idle
  /-- An instruction, and the state with its request taken. -/
  | run (i : Instr) (s : State)
  /-- An encoded packet that cannot be read, its error, and the state with its request taken. -/
  | reject (e : ErrCode) (s : State)
deriving DecidableEq, Repr

/-- Takes the next request from the operation port and decodes it in the block's configuration. -/
def fetch (s : State) : Fetched :=
  match s.opIn with
  | [] => .idle
  | r :: rest =>
    match decode (Cfg0.arch64 s.cfg0) s.params.pulpTval r with
    | .ok i => .run i { s with opIn := rest }
    | .error e => .reject e { s with opIn := rest }

end Sys2Proof.Machine
end

