-- ==== Sys2Proof/Machine/Codec.lean ====
section
/-! DEFINITION. The serializer and deserializer operations shared by the host operations and the packet kinds
(43_serializer.md R242 and R243, 44_deserializer.md R280 and R281). They change no state but the ports, and
STATUS on an error (20_memory.md R78). -/

namespace Sys2Proof.Machine

/-- OP_SER_PLAIN on a packet (43_serializer.md R242). -/
def serPlainOp (p : Packet) (align : Nat) (carry : Byte) (s : State) : State :=
  match serPlain s.xlen p align carry with
  | .error e => s.fail e
  | .ok (bytes, n) => s.doneSer ⟨bytes, some n⟩

/-- OP_SER_PULP on a packet (43_serializer.md R243). -/
def serPulpOp (p : Packet) (s : State) : State :=
  match serPulp s.xlen s.params.pulpTval p with
  | .error e => s.fail e
  | .ok bytes => s.doneSer ⟨bytes, none⟩

/-- The result of a plain read of `n` bits at `align`: the packet, the whole bytes consumed and the start of
the next packet (44_deserializer.md R280). -/
def plainResult (align n : Nat) (p : Packet) : DesOut := ⟨p, (align + n) / 8, some ((align + n) % 8)⟩

/-- The result of reading a frame with length nibble `len` (44_deserializer.md R281). -/
def pulpResult (len : BitVec 4) (p : Packet) : DesOut := ⟨p, len.toNat + 2, none⟩

/-- OP_DES_PLAIN on a byte sequence (44_deserializer.md R280). -/
def desPlainOp (bytes : List Byte) (align n : Nat) (s : State) : State :=
  match plainBits bytes align n with
  | .error e => s.fail e
  | .ok bits =>
    match deserialize s.xlen true bits with
    | .error e => s.fail e
    | .ok p => s.doneDes (plainResult align n p)

/-- OP_DES_PULP on a byte sequence (44_deserializer.md R281). -/
def desPulpOp (bytes : List Byte) (s : State) : State :=
  match frameBits bytes with
  | .error e => s.fail e
  | .ok (len, bits) =>
    match deserialize s.xlen s.params.pulpTval bits with
    | .error e => s.fail e
    | .ok p => s.doneDes (pulpResult len p)

/-- The least bit count with which a packet of this kind, and this `branches`, can be read: its fixed fields and
one bit of its variable field (44_deserializer.md R271). For a row handed over with `branches` above 31 see log entry 19. -/
def minBits (w : Nat) (tv : Bool) (p : Packet) : Nat :=
  match p.kind with
  | .branchFull | .branchDiff => 9 + bml p.branches + 1
  | .branchFullNoaddr | .branchDiffNoaddr => 10
  | .addrOnly => 5
  | .syncStart => 12 + w
  | .syncException => 18 + w + (if tv then w else 0)
  | .syncContext | .syncReserved => 6
  | .timer => 66
  | .software => 2 + w
  | .reservedMsg0 => 2

/-- Reading a packet whose fields are decoded, from `n` bits: the deserializer's errors or the packet
(44_deserializer.md R271). -/
def readPacket (w : Nat) (tv : Bool) (n : Nat) (p : Packet) : Except ErrCode Packet :=
  if n < minBits w tv p then .error .badPacket
  else
    match p.reservedError with
    | some e => .error e
    | none => .ok p

/-- The meaning of a plain packet: its serialization or its deserialization, as the use says (log entry 1). -/
def usePlain (u : PlainUse) (p : Packet) (s : State) : State :=
  match u with
  | .write align carry => serPlainOp p align carry s
  | .read align n =>
    if 8 ≤ align then s.fail .invalid
    else
      match readPacket s.xlen true n p with
      | .error e => s.fail e
      | .ok q => s.doneDes (plainResult align n q)

/-- The meaning of a PULP packet: its serialization or its deserialization, as the use says (log entry 1). -/
def usePulp (u : PulpUse) (p : Packet) (s : State) : State :=
  match u with
  | .write => serPulpOp p s
  | .read len =>
    match readPacket s.xlen s.params.pulpTval (8 * (len.toNat + 2) - pulpPktLen) p with
    | .error e => s.fail e
    | .ok q => s.doneDes (pulpResult len q)

end Sys2Proof.Machine
end

