-- ==== Sys2Proof/Machine/Encoder.lean ====
section
/-! DEFINITION. The encoder state machine (42_encoder_fsm.md): the window, PROCESS with the emit decision
table, flush and full-map packets. -/

namespace Sys2Proof.Machine

/-- SLOT(r, prev): the slot of a valid record, each value cut to its field (10_state.md R26). -/
def slotOf (w : Nat) (classes : Classes) (r : Record) (prev : Slot) : Slot where
  q := true
  exception := r.exception
  interrupt := r.interrupt
  cause := BitVec.ofNat 5 r.cause
  tval := BitVec.ofNat 64 (r.tval % 2 ^ w)
  priv := BitVec.ofNat 3 r.priv
  iaddr := BitVec.ofNat 64 (r.iaddr % 2 ^ w)
  instr := BitVec.ofNat 64 r.instr
  compressed := r.compressed
  isBranch := classes.isBranch
  unpredDisc := classes.isUnpred
  privilegeChange := prev.q && prev.priv != BitVec.ofNat 3 r.priv
  ees := false

namespace State

/-- The classifier's answers for a record's word in the state's configuration (00_scope.md R6, 10_state.md R26). -/
def classOf (s : State) (r : Record) : Classes :=
  classify s.params.classifier (BitVec.ofNat 64 r.instr) (Cfg0.implicitRet s.cfg0)

/-- The window shift: `last` takes `this`, `this` takes `next`, `next` the new slot (R174, R176). -/
def shiftIn (s : State) (new : Slot) : State :=
  { s with lastSlot := s.thisSlot, thisSlot := s.nextSlot, nextSlot := new }

/-- The shift of a record, which counts it (R174). -/
def shiftRecord (s : State) (r : Record) : State :=
  { s.shiftIn (slotOf s.xlen (s.classOf r) r s.nextSlot) with stats := s.stats.countInstr s.params.statw }

/-- Branch outcome recording: `this` is a branch and the next record is known (R181). -/
def recordBranch (s : State) : State :=
  if s.thisSlot.isBranch && s.nextSlot.q then
    { s with map := s.map.record (notTaken s.xlen s.thisSlot s.nextSlot) }
  else s

/-- SYNC_COMMON: the accumulator is reset and `last_iaddr` is `this.iaddr` (R193). -/
def syncCommon (s : State) : State := { s with map := BranchMap.empty, lastIaddr := s.thisSlot.iaddr }

/-- The slot flag of row 1: `this.ees` is set (R184). -/
def markEes (s : State) : State := { s with thisSlot := { s.thisSlot with ees := true } }

/-- The SYNC/START packet of rows 2 and 3 (R185, R186). -/
def syncStartPacket (s : State) (bb : Bool) : Packet :=
  Packet.syncStart s.xlen s.thisSlot.priv bb s.thisSlot.iaddr

/-- The SYNC/EXCEPTION packet of row 1: the trap is `last`'s, the place `this`'s (R184). -/
def syncExceptionPacket (s : State) (bb : Bool) : Packet :=
  Packet.syncException s.xlen s.thisSlot.priv bb s.thisSlot.iaddr s.lastSlot.cause s.lastSlot.interrupt s.lastSlot.tval

/-- The differential d = (last_iaddr - this.iaddr) mod 2^W of a flush (section 6). -/
def flushDiff (s : State) : Word := subX s.xlen s.lastIaddr s.thisSlot.iaddr

/-- The packet of FLUSH(disc): the first of R194, R195, R196 and R198 that applies. -/
def flushPacket (s : State) (disc : Bool) : Packet :=
  let cnt := s.map.cnt.toNat
  let qs := Cfg0.usePulpSext s.cfg0
  if cnt = 0 then
    if Cfg0.fullAddress s.cfg0 then Packet.addrOnly s.thisSlot.iaddr s.xlen
    else Packet.addrOnly s.flushDiff (addrKeep qs s.xlen s.flushDiff)
  else if cnt = 31 ∧ disc = false then Packet.branchFullNoaddr s.map.bits 31
  else if Cfg0.fullAddress s.cfg0 then Packet.branchFull cnt s.map.bits (bml cnt) s.thisSlot.iaddr s.xlen
  else
    match pack qs s.xlen s.thisSlot.iaddr s.flushDiff with
    | (true, k) => Packet.branchDiff cnt s.map.bits (bml cnt) s.flushDiff k
    | (false, k) => Packet.branchFull cnt s.map.bits (bml cnt) s.thisSlot.iaddr k

/-- The state changes of FLUSH(disc): the accumulator is reset, and `last_iaddr` is `this.iaddr` unless the
packet carries no address (R199). -/
def flushState (s : State) (disc : Bool) : State :=
  { s with
    map := BranchMap.empty
    lastIaddr := if s.map.cnt.toNat = 31 ∧ disc = false then s.lastIaddr else s.thisSlot.iaddr }

/-- The packet of FULLMAP (R200). -/
def fullmapPacket (s : State) : Packet :=
  Packet.branchFullNoaddr s.map.bits (fullmapBits (Cfg0.compressFullBranchMap s.cfg0) s.map.bits)

/-- ACC_RESET (40_accumulator.md R130). -/
def accReset (s : State) : State := { s with map := BranchMap.empty }

/-- The action of a row of the decision table, with the SYNC branch bit `bb` (R184 to R191). -/
def rowAction (s : State) (bb : Bool) : EmitRow → Except ErrCode (State × Option Packet)
  | .row1 => .ok (s.markEes.syncCommon, some (s.syncExceptionPacket bb))
  | .row2 => .ok (s.syncCommon, some (s.syncStartPacket bb))
  | .row3 => .ok (s.syncCommon, some (s.syncStartPacket bb))
  | .row4 => .ok (s.flushState true, some (s.flushPacket true))
  | .row5 => .ok (s.flushState false, some (s.flushPacket false))
  | .row6 => .ok (s.flushState false, some (s.flushPacket false))
  | .row7 => .ok (s.accReset, some s.fullmapPacket)
  | .row8 => .error .unimplemented

/-- PROCESS: nothing for an empty `this`; else the branch recording and the first row that holds (R179, R183,
R192). The SYNC branch bit is read before the accumulator changes. -/
def process (s : State) : Except ErrCode (State × Option Packet) :=
  if s.thisSlot.q then
    match selectRow s.recordBranch with
    | some row => s.recordBranch.rowAction s.syncBranchBit row
    | none => .ok (s.recordBranch, none)
  else .ok (s, none)

end State

/-- PROCESS and emission after a shift, for an operation that began in `before` and completes by `finish`
(R175, R176). An error of row 8 keeps the statistics made so far (60_exceptions.md R314). -/
def processAndEmit (before s : State) (finish : State → State) : State :=
  match s.process with
  | .error e => before.raise e s.stats
  | .ok (s', none) => (finish s').done
  | .ok (s', some p) => emitPacket before s' p finish

end Sys2Proof.Machine
end

