-- ==== Sys2Proof/Machine/HostOps.lean ====
section
/-! DEFINITION. The meanings of the host operations (42_encoder_fsm.md R170). -/

namespace Sys2Proof.Machine

/-- OP_RESET: the reset state of 70_reset_and_hazards.md R341, the output queues kept (R340). -/
def execOpReset (s : State) : Host.Outcome State Fault Refusal :=
  .next (s.configure 0 0).done

/-- OP_CONFIG: the configuration is loaded, CFG0's reserved bits 0, and all else reset but the output queues
(42_encoder_fsm.md R171). -/
def execOpConfig (cfg0 cfg1 : BitVec 32) (s : State) : Host.Outcome State Fault Refusal :=
  .next (s.configure (Cfg0.stored cfg0) cfg1).done

/-- OP_STEP: an invalid record changes nothing (42_encoder_fsm.md R172), an unsupported one raises `bad_instr`
(R173), any other shifts the window (R174) and runs PROCESS (R175). -/
def execOpStep (r : Record) (s : State) : Host.Outcome State Fault Refusal :=
  .next <|
    if r.valid then
      if (s.classOf r).isUnsupported then s.fail .badInstr
      else processAndEmit s (s.shiftRecord r) id
    else s.done

/-- OP_END: shifts in the empty slot, runs PROCESS and flushes the stream writer (42_encoder_fsm.md R176). -/
def execOpEnd (s : State) : Host.Outcome State Fault Refusal :=
  .next (processAndEmit s (s.shiftIn Slot.empty) State.flushWriter)

/-- OP_INJECT: a Timer or Software packet is emitted, any other raises `invalid` (42_encoder_fsm.md R177). Its
unused fields are 0 in the queue (R203). DEDUCED (unsafe), log entry 10. -/
def execOpInject (p : Packet) (s : State) : Host.Outcome State Fault Refusal :=
  .next <|
    if p.msgType = 1 ∨ p.msgType = 3 then emitPacket s s (p.canon s.xlen) id
    else s.fail .invalid

/-- OP_CLEAR_STATUS: STATUS is NONE (60_exceptions.md R306). -/
def execOpClearStatus (s : State) : Host.Outcome State Fault Refusal :=
  .next s.clearStatus.done

/-- OP_READ: the registers are read and nothing changes (10_state.md R35, 42_encoder_fsm.md R170). -/
def execOpRead (s : State) : Host.Outcome State Fault Refusal :=
  .next (s.doneRead s.readView)

/-- OP_SER_PLAIN (43_serializer.md R242). -/
def execOpSerPlain (p : Packet) (align : Nat) (carry : Byte) (s : State) : Host.Outcome State Fault Refusal :=
  .next (serPlainOp p align carry s)

/-- OP_SER_PULP (43_serializer.md R243). -/
def execOpSerPulp (p : Packet) (s : State) : Host.Outcome State Fault Refusal :=
  .next (serPulpOp p s)

/-- OP_DES_PLAIN (44_deserializer.md R280). -/
def execOpDesPlain (bytes : List Byte) (align n : Nat) (s : State) : Host.Outcome State Fault Refusal :=
  .next (desPlainOp bytes align n s)

/-- OP_DES_PULP (44_deserializer.md R281). -/
def execOpDesPulp (bytes : List Byte) (s : State) : Host.Outcome State Fault Refusal :=
  .next (desPulpOp bytes s)

end Sys2Proof.Machine
end

