-- ==== Sys2Proof/Machine/PlainPackets.lean ====
section
/-! DEFINITION. The meanings of the packet kinds in the plain framing: writing and reading each kind. -/

namespace Sys2Proof.Machine

/-- BRANCH_FULL in the plain framing: written by 43_serializer.md R232 or read by 44_deserializer.md R272. -/
def execBranchFullPlain (u : PlainUse) (branches : Nat) (branchMap : BitVec 31) (mapBits : Nat) (address : Word) (addrBits : Nat) (s : State) : Host.Outcome State Fault Refusal :=
  .next (usePlain u (Packet.branchFull branches branchMap mapBits address addrBits) s)

/-- BRANCH_FULL_NOADDR in the plain framing: written by 43_serializer.md R234 or read by 44_deserializer.md R274. -/
def execBranchFullNoaddrPlain (u : PlainUse) (branchMap : BitVec 31) (mapBits : Nat) (s : State) : Host.Outcome State Fault Refusal :=
  .next (usePlain u (Packet.branchFullNoaddr branchMap mapBits) s)

/-- BRANCH_DIFF in the plain framing: written by 43_serializer.md R233 or read by 44_deserializer.md R273. -/
def execBranchDiffPlain (u : PlainUse) (branches : Nat) (branchMap : BitVec 31) (mapBits : Nat) (address : Word) (addrBits : Nat) (s : State) : Host.Outcome State Fault Refusal :=
  .next (usePlain u (Packet.branchDiff branches branchMap mapBits address addrBits) s)

/-- BRANCH_DIFF_NOADDR in the plain framing: written by 43_serializer.md R234 or read by 44_deserializer.md R274. -/
def execBranchDiffNoaddrPlain (u : PlainUse) (branchMap : BitVec 31) (mapBits : Nat) (s : State) : Host.Outcome State Fault Refusal :=
  .next (usePlain u (Packet.branchDiffNoaddr branchMap mapBits) s)

/-- ADDR_ONLY in the plain framing: written by 43_serializer.md R235 or read by 44_deserializer.md R275. -/
def execAddrOnlyPlain (u : PlainUse) (address : Word) (addrBits : Nat) (s : State) : Host.Outcome State Fault Refusal :=
  .next (usePlain u (Packet.addrOnly address addrBits) s)

/-- SYNC_START in the plain framing: written by 43_serializer.md R236 or read by 44_deserializer.md R276. -/
def execSyncStartPlain (u : PlainUse) (privilege : BitVec 3) (branch : Bool) (address : Word) (s : State) : Host.Outcome State Fault Refusal :=
  .next (usePlain u (Packet.syncStart s.xlen privilege branch address) s)

/-- SYNC_EXCEPTION in the plain framing: written by 43_serializer.md R237 or read by 44_deserializer.md R277. -/
def execSyncExceptionPlain (u : PlainUse) (privilege : BitVec 3) (branch : Bool) (address : Word) (cause : BitVec 5) (interrupt : Bool) (tval : Word) (s : State) : Host.Outcome State Fault Refusal :=
  .next (usePlain u (Packet.syncException s.xlen privilege branch address cause interrupt tval) s)

/-- SYNC_CONTEXT in the plain framing: written (43_serializer.md R238) or read (44_deserializer.md R271) it raises `unimplemented`. -/
def execSyncContextPlain (u : PlainUse) (privilege : BitVec 3) (s : State) : Host.Outcome State Fault Refusal :=
  .next (usePlain u (Packet.syncContext privilege) s)

/-- SYNC_RESERVED in the plain framing: written (43_serializer.md R239) or read (44_deserializer.md R271) it raises `bad_packet`. -/
def execSyncReservedPlain (u : PlainUse) (privilege : BitVec 3) (s : State) : Host.Outcome State Fault Refusal :=
  .next (usePlain u (Packet.syncReserved privilege) s)

/-- TIMER in the plain framing: written by 43_serializer.md R241 or read by 44_deserializer.md R279. -/
def execTimerPlain (u : PlainUse) (time : BitVec 64) (s : State) : Host.Outcome State Fault Refusal :=
  .next (usePlain u (Packet.timer time) s)

/-- SOFTWARE in the plain framing: written by 43_serializer.md R240 or read by 44_deserializer.md R278. -/
def execSoftwarePlain (u : PlainUse) (userdata : BitVec 32) (s : State) : Host.Outcome State Fault Refusal :=
  .next (usePlain u (Packet.software userdata) s)

/-- RESERVED_MSG0 in the plain framing: written (43_serializer.md R245) or read (44_deserializer.md R271) it raises `bad_packet`. -/
def execReservedMsg0Plain (u : PlainUse) (s : State) : Host.Outcome State Fault Refusal :=
  .next (usePlain u Packet.reservedMsg0 s)

end Sys2Proof.Machine
end

