-- ==== Sys2Proof/Machine/PulpPackets.lean ====
section
/-! DEFINITION. The meanings of the packet kinds in the PULP framing: writing and reading each kind. -/

namespace Sys2Proof.Machine

/-- BRANCH_FULL in the PULP framing: written by 43_serializer.md R232 or read by 44_deserializer.md R272. -/
def execBranchFullPulp (u : PulpUse) (branches : Nat) (branchMap : BitVec 31) (mapBits : Nat) (address : Word) (addrBits : Nat) (s : State) : Host.Outcome State Fault Refusal :=
  .next (usePulp u (Packet.branchFull branches branchMap mapBits address addrBits) s)

/-- BRANCH_FULL_NOADDR in the PULP framing: written by 43_serializer.md R234 or read by 44_deserializer.md R274. -/
def execBranchFullNoaddrPulp (u : PulpUse) (branchMap : BitVec 31) (mapBits : Nat) (s : State) : Host.Outcome State Fault Refusal :=
  .next (usePulp u (Packet.branchFullNoaddr branchMap mapBits) s)

/-- BRANCH_DIFF in the PULP framing: written by 43_serializer.md R233 or read by 44_deserializer.md R273. -/
def execBranchDiffPulp (u : PulpUse) (branches : Nat) (branchMap : BitVec 31) (mapBits : Nat) (address : Word) (addrBits : Nat) (s : State) : Host.Outcome State Fault Refusal :=
  .next (usePulp u (Packet.branchDiff branches branchMap mapBits address addrBits) s)

/-- BRANCH_DIFF_NOADDR in the PULP framing: written by 43_serializer.md R234 or read by 44_deserializer.md R274. -/
def execBranchDiffNoaddrPulp (u : PulpUse) (branchMap : BitVec 31) (mapBits : Nat) (s : State) : Host.Outcome State Fault Refusal :=
  .next (usePulp u (Packet.branchDiffNoaddr branchMap mapBits) s)

/-- ADDR_ONLY in the PULP framing: written by 43_serializer.md R235 or read by 44_deserializer.md R275. -/
def execAddrOnlyPulp (u : PulpUse) (address : Word) (addrBits : Nat) (s : State) : Host.Outcome State Fault Refusal :=
  .next (usePulp u (Packet.addrOnly address addrBits) s)

/-- SYNC_START in the PULP framing: written by 43_serializer.md R236 or read by 44_deserializer.md R276. -/
def execSyncStartPulp (u : PulpUse) (privilege : BitVec 3) (branch : Bool) (address : Word) (s : State) : Host.Outcome State Fault Refusal :=
  .next (usePulp u (Packet.syncStart s.xlen privilege branch address) s)

/-- SYNC_EXCEPTION in the PULP framing: written by 43_serializer.md R237 or read by 44_deserializer.md R277. -/
def execSyncExceptionPulp (u : PulpUse) (privilege : BitVec 3) (branch : Bool) (address : Word) (cause : BitVec 5) (interrupt : Bool) (tval : Word) (s : State) : Host.Outcome State Fault Refusal :=
  .next (usePulp u (Packet.syncException s.xlen privilege branch address cause interrupt tval) s)

/-- SYNC_CONTEXT in the PULP framing: written (43_serializer.md R238) or read (44_deserializer.md R271) it raises `unimplemented`. -/
def execSyncContextPulp (u : PulpUse) (privilege : BitVec 3) (s : State) : Host.Outcome State Fault Refusal :=
  .next (usePulp u (Packet.syncContext privilege) s)

/-- SYNC_RESERVED in the PULP framing: written (43_serializer.md R239) or read (44_deserializer.md R271) it raises `bad_packet`. -/
def execSyncReservedPulp (u : PulpUse) (privilege : BitVec 3) (s : State) : Host.Outcome State Fault Refusal :=
  .next (usePulp u (Packet.syncReserved privilege) s)

/-- TIMER in the PULP framing: written by 43_serializer.md R241 or read by 44_deserializer.md R279. -/
def execTimerPulp (u : PulpUse) (time : BitVec 64) (s : State) : Host.Outcome State Fault Refusal :=
  .next (usePulp u (Packet.timer time) s)

/-- SOFTWARE in the PULP framing: written by 43_serializer.md R240 or read by 44_deserializer.md R278. -/
def execSoftwarePulp (u : PulpUse) (userdata : BitVec 32) (s : State) : Host.Outcome State Fault Refusal :=
  .next (usePulp u (Packet.software userdata) s)

/-- RESERVED_MSG0 in the PULP framing: written (43_serializer.md R245) or read (44_deserializer.md R271) it raises `bad_packet`. -/
def execReservedMsg0Pulp (u : PulpUse) (s : State) : Host.Outcome State Fault Refusal :=
  .next (usePulp u Packet.reservedMsg0 s)

end Sys2Proof.Machine
end

