-- ==== Sys2Proof/Machine/Dispatch.lean ====
section
/-! DEFINITION. The meaning of every instruction, one arm per constructor. -/

namespace Sys2Proof.Machine

def exec (i : Instr) (s : State) : Host.Outcome State Fault Refusal :=
  match i with
  | .branchFullPlain u branches branchMap mapBits address addrBits => Sys2Proof.Machine.execBranchFullPlain u branches branchMap mapBits address addrBits s
  | .branchFullNoaddrPlain u branchMap mapBits => Sys2Proof.Machine.execBranchFullNoaddrPlain u branchMap mapBits s
  | .branchDiffPlain u branches branchMap mapBits address addrBits => Sys2Proof.Machine.execBranchDiffPlain u branches branchMap mapBits address addrBits s
  | .branchDiffNoaddrPlain u branchMap mapBits => Sys2Proof.Machine.execBranchDiffNoaddrPlain u branchMap mapBits s
  | .addrOnlyPlain u address addrBits => Sys2Proof.Machine.execAddrOnlyPlain u address addrBits s
  | .syncStartPlain u privilege branch address => Sys2Proof.Machine.execSyncStartPlain u privilege branch address s
  | .syncExceptionPlain u privilege branch address cause interrupt tval => Sys2Proof.Machine.execSyncExceptionPlain u privilege branch address cause interrupt tval s
  | .syncContextPlain u privilege => Sys2Proof.Machine.execSyncContextPlain u privilege s
  | .syncReservedPlain u privilege => Sys2Proof.Machine.execSyncReservedPlain u privilege s
  | .timerPlain u time => Sys2Proof.Machine.execTimerPlain u time s
  | .softwarePlain u userdata => Sys2Proof.Machine.execSoftwarePlain u userdata s
  | .reservedMsg0Plain u => Sys2Proof.Machine.execReservedMsg0Plain u s
  | .branchFullPulp u branches branchMap mapBits address addrBits => Sys2Proof.Machine.execBranchFullPulp u branches branchMap mapBits address addrBits s
  | .branchFullNoaddrPulp u branchMap mapBits => Sys2Proof.Machine.execBranchFullNoaddrPulp u branchMap mapBits s
  | .branchDiffPulp u branches branchMap mapBits address addrBits => Sys2Proof.Machine.execBranchDiffPulp u branches branchMap mapBits address addrBits s
  | .branchDiffNoaddrPulp u branchMap mapBits => Sys2Proof.Machine.execBranchDiffNoaddrPulp u branchMap mapBits s
  | .addrOnlyPulp u address addrBits => Sys2Proof.Machine.execAddrOnlyPulp u address addrBits s
  | .syncStartPulp u privilege branch address => Sys2Proof.Machine.execSyncStartPulp u privilege branch address s
  | .syncExceptionPulp u privilege branch address cause interrupt tval => Sys2Proof.Machine.execSyncExceptionPulp u privilege branch address cause interrupt tval s
  | .syncContextPulp u privilege => Sys2Proof.Machine.execSyncContextPulp u privilege s
  | .syncReservedPulp u privilege => Sys2Proof.Machine.execSyncReservedPulp u privilege s
  | .timerPulp u time => Sys2Proof.Machine.execTimerPulp u time s
  | .softwarePulp u userdata => Sys2Proof.Machine.execSoftwarePulp u userdata s
  | .reservedMsg0Pulp u => Sys2Proof.Machine.execReservedMsg0Pulp u s
  | .opReset => Sys2Proof.Machine.execOpReset s
  | .opConfig cfg0 cfg1 => Sys2Proof.Machine.execOpConfig cfg0 cfg1 s
  | .opStep r => Sys2Proof.Machine.execOpStep r s
  | .opEnd => Sys2Proof.Machine.execOpEnd s
  | .opInject p => Sys2Proof.Machine.execOpInject p s
  | .opClearStatus => Sys2Proof.Machine.execOpClearStatus s
  | .opRead => Sys2Proof.Machine.execOpRead s
  | .opSerPlain p align carry => Sys2Proof.Machine.execOpSerPlain p align carry s
  | .opSerPulp p => Sys2Proof.Machine.execOpSerPulp p s
  | .opDesPlain bytes align n => Sys2Proof.Machine.execOpDesPlain bytes align n s
  | .opDesPulp bytes => Sys2Proof.Machine.execOpDesPulp bytes s

end Sys2Proof.Machine
end

