-- ==== Sys2Proof/Machine/Step.lean ====
section
/-! DEFINITION. One step: the next request of the operation port is taken and run (70_reset_and_hazards.md R350). -/

namespace Sys2Proof.Machine

/-- One operation is one step. With no request pending the block waits and holds its state (70_reset_and_hazards.md
R343, 60_exceptions.md R315). An encoded packet that cannot be read ends with the deserializer's error
(log entry 12). -/
def step (s : State) : Host.Outcome State Fault Refusal :=
  match fetch s with
  | .idle => .next s
  | .run i s' => exec i s'
  | .reject e s' => .next (s'.fail e)

/-- The state with a word of the opcode table as its next request (log entry 3). -/
def State.withFetchWord (s : State) (nbits w : Nat) : State :=
  { s with opIn := tableRequest (Cfg0.arch64 s.cfg0) s.params.pulpTval nbits w :: s.opIn }

end Sys2Proof.Machine
end

