-- ==== Sys2Proof/Safety.lean ====
section
/-! DEFINITION. What counts as a safe run, and the terms the statements use: the invariant of the state, the stream
the block has written, and what an encode operation shifts into the window. -/

namespace Sys2Proof.Machine

/-- A slot that holds no record is EMPTY (10_state.md R27), and the addresses of a slot are XLEN bits (R25, R26). -/
structure Slot.Inv (w : Nat) (s : Slot) : Prop where
  empty_of_unqualified : s.q = false → s = Slot.empty
  iaddr_fits : s.iaddr.toNat < 2 ^ w
  tval_fits : s.tval.toNat < 2 ^ w

/-- `privilege_change` marks a record whose privilege differs from that of the record before it (10_state.md R26). -/
def Slot.changesFrom (prev s : Slot) : Prop :=
  s.privilegeChange = true → prev.q = true ∧ prev.priv ≠ s.priv

/-- The counters are STATW bits wide, and the histogram has 64 buckets (10_state.md R34). -/
structure Stats.Inv (statw : Nat) (t : Stats) : Prop where
  instrs : t.instrs < 2 ^ statw
  pktBranchFull : t.pktBranchFull < 2 ^ statw
  pktBranchDiff : t.pktBranchDiff < 2 ^ statw
  pktAddrOnly : t.pktAddrOnly < 2 ^ statw
  pktSyncStart : t.pktSyncStart < 2 ^ statw
  pktSyncException : t.pktSyncException < 2 ^ statw
  pktSoftware : t.pktSoftware < 2 ^ statw
  pktTimer : t.pktTimer < 2 ^ statw
  payloadBits : t.payloadBits < 2 ^ statw
  pulpBits : t.pulpBits < 2 ^ statw
  addrZero : t.addrZero < 2 ^ statw
  addrOnes : t.addrOnes < 2 ^ statw
  buckets : t.sextHist.length = 64
  sextHist : ∀ c ∈ t.sextHist, c < 2 ^ statw

/-- The invariant of the block: what holds of its state between any two operations. -/
structure State.Inv (s : State) : Prop where
  /-- CFG0's reserved bits read 0 (10_state.md R21). -/
  cfg0_reserved : ∀ i, 7 ≤ i → s.cfg0.getLsbD i = false
  /-- The slots hold XLEN-bit addresses, and are EMPTY when unqualified (10_state.md R25 to R27). -/
  lastSlot : s.lastSlot.Inv s.xlen
  thisSlot : s.thisSlot.Inv s.xlen
  nextSlot : s.nextSlot.Inv s.xlen
  /-- `privilege_change` compares neighbours (10_state.md R26). -/
  this_changes : s.lastSlot.changesFrom s.thisSlot
  next_changes : s.thisSlot.changesFrom s.nextSlot
  /-- `ees` is set only on the record after a trap (42_encoder_fsm.md R184). -/
  this_ees : s.thisSlot.ees = true → s.lastSlot.exception = true
  next_ees : s.nextSlot.ees = false
  /-- At most 30 outcomes wait between operations (40_accumulator.md R136). -/
  map_cnt : s.map.cnt.toNat ≤ 30
  /-- Bits at and above the count are 0 (10_state.md R29, 40_accumulator.md R137). -/
  map_bits : s.map.bits.toNat < 2 ^ s.map.cnt.toNat
  /-- The last emitted address is XLEN bits (10_state.md R30). -/
  lastIaddr_fits : s.lastIaddr.toNat < 2 ^ s.xlen
  /-- The reserved resync pair stays 0 (10_state.md R31). -/
  resyncCnt : s.resyncCnt = 0
  resyncPend : s.resyncPend = false
  /-- The carry's bits at and above its count are 0 (10_state.md R32). -/
  wrCarry : s.wrCarry.toNat < 2 ^ s.wrAlign.toNat
  /-- In the PULP framing no carry is held (20_memory.md R76). -/
  pulp_aligned : Cfg0.pulpFraming s.cfg0 = true → s.wrAlign = 0
  /-- The counters are within their width (10_state.md R34). -/
  stats : s.stats.Inv s.params.statw

/-- A run is safe while every step answers a next state that keeps the invariant. -/
def SafeStep (s : State) : Prop := ∃ t, step s = .next t ∧ t.Inv

/-- The bits written so far: those of the output byte queue and then those of the started byte (20_memory.md R75). -/
def State.stream (s : State) : Bits := ofBytes s.byteOut ++ bitsOf s.wrAlign.toNat s.wrCarry.toNat

/-- The configuration in which a SYNC/EXCEPTION does not fit a frame (43_serializer.md R244): PULP framing,
XLEN 64 and tval carried. -/
def State.overflows (s : State) : Bool :=
  Cfg0.pulpFraming s.cfg0 && Cfg0.arch64 s.cfg0 && s.params.pulpTval

/-- The operations that shift the window, each with the slot it shifts in: OP_STEP with a valid and supported record
the record's slot (42_encoder_fsm.md R174), OP_END the empty slot (R176). -/
inductive Shifts (s : State) : Instr → Slot → Prop
  | record (r : Record) (valid : r.valid = true) (supported : (s.classOf r).isUnsupported = false) :
      Shifts s (.opStep r) (slotOf s.xlen (s.classOf r) r s.nextSlot)
  | finish : Shifts s .opEnd Slot.empty

/-- The accumulator that the decision table sees when the slot `n` is shifted in after `s`: it includes the outcome
of the slot that is processed, if that is a branch and `n` holds a record (42_encoder_fsm.md R181). -/
def State.mapSeen (s : State) (n : Slot) : BranchMap :=
  if s.nextSlot.isBranch && n.q then s.map.record (notTaken s.xlen s.nextSlot n) else s.map

end Sys2Proof.Machine
end

