-- ==== Sys2Proof/Certificates/Slice0/Obligations.lean ====
section
/-! DEFINITION. The statements for the provers. In every statement `q` is what the ports show after the operation;
only what the rules give of it is stated. -/

open Sys2Proof Sys2Proof.Machine

/-! ## Reset, configuration, status, register read -/

/-- 70_reset_and_hazards.md R341 and R343: every element of the state at power-on, and both queues empty. -/
def Obligations.ResetStateHoldsListedValues : Prop :=
  State.reset.cfg0 = 0 ∧ State.reset.cfg1 = 0
  ∧ State.reset.lastSlot = ⟨false, false, false, 0, 0, 0, 0, 0, false, false, false, false, false⟩
  ∧ State.reset.thisSlot = ⟨false, false, false, 0, 0, 0, 0, 0, false, false, false, false, false⟩
  ∧ State.reset.nextSlot = ⟨false, false, false, 0, 0, 0, 0, 0, false, false, false, false, false⟩
  ∧ State.reset.map = ⟨0, 0⟩ ∧ State.reset.lastIaddr = 0
  ∧ State.reset.resyncCnt = 0 ∧ State.reset.resyncPend = false
  ∧ State.reset.wrAlign = 0 ∧ State.reset.wrCarry = 0 ∧ State.reset.status = .noError
  ∧ State.reset.stats = ⟨0, 0, 0, 0, 0, 0, 0, 0, 0, 0, 0, 0, List.replicate 64 0⟩
  ∧ State.reset.packetOut = [] ∧ State.reset.byteOut = []

/-- R340: OP_RESET, from every state; the two output queues are not touched. -/
def Obligations.OpResetRestoresAllButTheQueues : Prop :=
  ∀ s : State, ∃ q : Ports,
    exec .opReset s = .next { s with
      cfg0 := 0, cfg1 := 0
      lastSlot := Slot.empty, thisSlot := Slot.empty, nextSlot := Slot.empty
      map := ⟨0, 0⟩, lastIaddr := 0, resyncCnt := 0, resyncPend := false
      wrAlign := 0, wrCarry := 0, status := .noError
      stats := ⟨0, 0, 0, 0, 0, 0, 0, 0, 0, 0, 0, 0, List.replicate 64 0⟩
      ports := q }
    ∧ q.result = .noError

/-- R171: OP_CONFIG loads CFG0 without its reserved bits, and CFG1, and resets all else but the queues. -/
def Obligations.OpConfigLoadsTheConfiguration : Prop :=
  ∀ (s : State) (c0 c1 : BitVec 32), ∃ q : Ports,
    exec (.opConfig c0 c1) s = .next { s with
      cfg0 := c0 &&& 0x7F, cfg1 := c1
      lastSlot := Slot.empty, thisSlot := Slot.empty, nextSlot := Slot.empty
      map := ⟨0, 0⟩, lastIaddr := 0, resyncCnt := 0, resyncPend := false
      wrAlign := 0, wrCarry := 0, status := .noError
      stats := ⟨0, 0, 0, 0, 0, 0, 0, 0, 0, 0, 0, 0, List.replicate 64 0⟩
      ports := q }
    ∧ q.result = .noError

/-- OP_CONFIG is OP_RESET but for CFG0 and CFG1, and OP_RESET before it changes nothing: R342, whose last sentence the spec
marks as its own inference. -/
def Obligations.ResetThenConfigIsConfig : Prop :=
  ∀ (s : State) (c0 c1 : BitVec 32), ∃ t u : State,
    exec .opReset s = .next t ∧ exec (.opConfig c0 c1) t = .next u ∧ exec (.opConfig c0 c1) s = .next u
    ∧ u = { t with cfg0 := c0 &&& 0x7F, cfg1 := c1, ports := u.ports }

/-- R306: OP_CLEAR_STATUS sets STATUS to NONE and changes nothing else; it raises nothing. -/
def Obligations.OpClearStatusSetsNone : Prop :=
  ∀ s : State, ∃ q : Ports, exec .opClearStatus s = .next { s with status := .noError, ports := q } ∧ q.result = .noError

/-- 10_state.md R35, 42_encoder_fsm.md R170: OP_READ returns the readable registers and changes nothing. -/
def Obligations.OpReadReturnsTheRegisters : Prop :=
  ∀ s : State, ∃ q : Ports,
    exec .opRead s = .next { s with ports := q } ∧ q.result = .noError
    ∧ q.read = some { cfg0 := s.cfg0, cfg1 := s.cfg1, map := s.map, lastIaddr := s.lastIaddr, wrAlign := s.wrAlign, wrCarry := s.wrCarry, status := s.status, stats := s.stats }

/-! ## OP_STEP and OP_END -/

/-- R172: a record with `valid` 0 has no effect. -/
def Obligations.InvalidRecordChangesNothing : Prop :=
  ∀ (s : State) (r : Record), r.valid = false →
    ∃ q : Ports, exec (.opStep r) s = .next { s with ports := q } ∧ q.result = .noError

/-- R173: a valid record whose word the classifier marks unsupported raises `bad_instr` before the window shifts. -/
def Obligations.UnsupportedRecordRaisesBadInstr : Prop :=
  ∀ (s : State) (r : Record), r.valid = true →
    (classify s.params.classifier (BitVec.ofNat 64 r.instr) (s.cfg0.getLsbD 3)).isUnsupported = true →
    ∃ q : Ports, exec (.opStep r) s = .next { s with status := .badInstr, ports := q } ∧ q.result = .badInstr

/-- R174 and R26: an OP_STEP that answers OK has shifted the window, `next` is the record's slot field by field, and
`st_instrs` is one higher. (`ees` of `this` is the decision table's to set, R184.) -/
def Obligations.SupportedRecordEntersTheWindow : Prop :=
  ∀ (s t : State) (r : Record), r.valid = true →
    (classify s.params.classifier (BitVec.ofNat 64 r.instr) (s.cfg0.getLsbD 3)).isUnsupported = false →
    exec (.opStep r) s = .next t → t.ports.result = .noError →
    t.lastSlot = s.thisSlot
    ∧ { t.thisSlot with ees := s.nextSlot.ees } = s.nextSlot
    ∧ t.nextSlot = {
        q := true
        exception := r.exception
        interrupt := r.interrupt
        cause := BitVec.ofNat 5 (r.cause % 2 ^ 5)
        tval := BitVec.ofNat 64 (r.tval % 2 ^ s.xlen)
        priv := BitVec.ofNat 3 (r.priv % 2 ^ 3)
        iaddr := BitVec.ofNat 64 (r.iaddr % 2 ^ s.xlen)
        instr := BitVec.ofNat 64 (r.instr % 2 ^ 64)
        compressed := r.compressed
        isBranch := (classify s.params.classifier (BitVec.ofNat 64 r.instr) (s.cfg0.getLsbD 3)).isBranch
        unpredDisc := (classify s.params.classifier (BitVec.ofNat 64 r.instr) (s.cfg0.getLsbD 3)).isUnpred
        privilegeChange := s.nextSlot.q && decide (s.nextSlot.priv.toNat ≠ r.priv % 2 ^ 3)
        ees := false }
    ∧ t.stats.instrs = (s.stats.instrs + 1) % 2 ^ s.params.statw

/-- R179: with nothing in the slot to be processed, OP_STEP only shifts the window and counts the record. -/
def Obligations.FirstRecordOnlyEntersTheWindow : Prop :=
  ∀ (s : State) (r : Record), r.valid = true → (s.classOf r).isUnsupported = false → s.nextSlot.q = false →
    ∃ q : Ports,
      exec (.opStep r) s = .next { s with
        lastSlot := s.thisSlot, thisSlot := s.nextSlot, nextSlot := slotOf s.xlen (s.classOf r) r s.nextSlot
        stats := { s.stats with instrs := (s.stats.instrs + 1) % 2 ^ s.params.statw }
        ports := q }
      ∧ q.result = .noError

/-- R176, R77: with nothing in the slot to be processed, OP_END shifts in the empty slot and flushes the writer. -/
def Obligations.EndOfAnEmptyWindowFlushesTheWriter : Prop :=
  ∀ s : State, s.nextSlot.q = false →
    ∃ q : Ports,
      exec .opEnd s = .next { s with
        lastSlot := s.thisSlot, thisSlot := s.nextSlot, nextSlot := Slot.empty
        byteOut := if s.wrAlign = 0 then s.byteOut else s.byteOut ++ [BitVec.ofNat 8 s.wrCarry.toNat]
        wrAlign := 0, wrCarry := if s.wrAlign = 0 then s.wrCarry else 0
        ports := q }
      ∧ q.result = .noError

/-- R184, R193, R182: row 1. The first record after a trap gets a SYNC/EXCEPTION with the trap's cause, interrupt flag
and tval, the accumulator is reset, `last_iaddr` is its address and its `ees` is set; all else is kept but the
statistics and the stream writer. -/
def Obligations.RecordAfterATrapGetsSyncException : Prop :=
  ∀ (s : State) (i : Instr) (n : Slot), Shifts s i n → s.nextSlot.q = true →
    s.thisSlot.exception = true → s.overflows = false →
    ∃ (st : Stats) (b : List Byte) (al : BitVec 3) (c : BitVec 7) (q : Ports),
      exec i s = .next { s with
        lastSlot := s.thisSlot, thisSlot := { s.nextSlot with ees := true }, nextSlot := n
        map := ⟨0, 0⟩, lastIaddr := s.nextSlot.iaddr
        packetOut := s.packetOut ++ [Packet.syncException s.xlen s.nextSlot.priv
          (s.nextSlot.isBranch && n.q && notTaken s.xlen s.nextSlot n) s.nextSlot.iaddr
          s.thisSlot.cause s.thisSlot.interrupt s.thisSlot.tval]
        stats := st, byteOut := s.byteOut ++ b, wrAlign := al, wrCarry := c, ports := q }
      ∧ q.result = .noError

/-- R244, R203, R305, R314: where a SYNC/EXCEPTION does not fit a frame, the operation that would emit it raises
`bad_packet`, and keeps of its writes the statistics alone. -/
def Obligations.OversizedSyncExceptionRaisesBadPacket : Prop :=
  ∀ (s : State) (i : Instr) (n : Slot), Shifts s i n → s.nextSlot.q = true →
    s.thisSlot.exception = true → s.overflows = true →
    ∃ (st : Stats) (q : Ports),
      exec i s = .next { s with status := .badPacket, stats := st, ports := q }
      ∧ q.result = .badPacket
      ∧ st.instrs = (if n.q then (s.stats.instrs + 1) % 2 ^ s.params.statw else s.stats.instrs)
      ∧ st.pktSyncException = (s.stats.pktSyncException + 1) % 2 ^ s.params.statw
      ∧ st.payloadBits = (s.stats.payloadBits + 146) % 2 ^ s.params.statw
      ∧ st.pulpBits = s.stats.pulpBits % 2 ^ s.params.statw

/-- R185, R186, R193, R182: rows 2 and 3. The record after a SYNC/EXCEPTION under `pulp_vector_table_packet`, the first
record of a trace and the first of a privilege get a SYNC/START. -/
def Obligations.FirstOrChangedRecordGetsSyncStart : Prop :=
  ∀ (s : State) (i : Instr) (n : Slot), Shifts s i n → s.nextSlot.q = true →
    s.thisSlot.exception = false →
    (s.thisSlot.ees = true ∧ s.cfg0.getLsbD 4 = true ∨ s.thisSlot.q = false ∨ s.nextSlot.privilegeChange = true) →
    ∃ (st : Stats) (b : List Byte) (al : BitVec 3) (c : BitVec 7) (q : Ports),
      exec i s = .next { s with
        lastSlot := s.thisSlot, thisSlot := s.nextSlot, nextSlot := n
        map := ⟨0, 0⟩, lastIaddr := s.nextSlot.iaddr
        packetOut := s.packetOut ++ [Packet.syncStart s.xlen s.nextSlot.priv
          (s.nextSlot.isBranch && n.q && notTaken s.xlen s.nextSlot n) s.nextSlot.iaddr]
        stats := st, byteOut := s.byteOut ++ b, wrAlign := al, wrCarry := c, ports := q }
      ∧ q.result = .noError

/-- R187, R189, R194 to R199: rows 4 and 6. After an unpredictable discontinuity, and before a trap, a privilege change
or the end of the trace, the map and the address are flushed: the packet by the count of outcomes, `full_address` and
the packer; a full map without a discontinuity goes without its address and keeps `last_iaddr`. -/
def Obligations.FlushCarriesTheMapAndTheAddress : Prop :=
  ∀ (s : State) (i : Instr) (n : Slot), Shifts s i n → s.nextSlot.q = true →
    s.thisSlot.exception = false → (s.thisSlot.ees && s.cfg0.getLsbD 4) = false → s.thisSlot.q = true →
    s.nextSlot.privilegeChange = false → s.resyncPend = false →
    (s.thisSlot.unpredDisc = true ∨ n.exception = true ∨ n.privilegeChange = true ∨ n.q = false) →
    let w := s.xlen
    let qs := s.cfg0.getLsbD 2
    let m := s.mapSeen n
    let cnt := m.cnt.toNat
    let a := s.nextSlot.iaddr
    let d := truncX w (s.lastIaddr - a)
    ∃ (st : Stats) (b : List Byte) (al : BitVec 3) (c : BitVec 7) (q : Ports),
      exec i s = .next { s with
        lastSlot := s.thisSlot, thisSlot := s.nextSlot, nextSlot := n
        map := ⟨0, 0⟩
        lastIaddr := if cnt = 31 ∧ s.thisSlot.unpredDisc = false then s.lastIaddr else a
        packetOut := s.packetOut ++ [
          if cnt = 0 then
            if s.cfg0.getLsbD 1 then Packet.addrOnly a w
            else Packet.addrOnly d (keep (lead qs w d) w)
          else if cnt = 31 ∧ s.thisSlot.unpredDisc = false then Packet.branchFullNoaddr m.bits 31
          else if s.cfg0.getLsbD 1 then Packet.branchFull cnt m.bits (bml cnt) a w
          else if lead qs w a < lead qs w d then Packet.branchDiff cnt m.bits (bml cnt) d (keep (lead qs w d) w)
          else Packet.branchFull cnt m.bits (bml cnt) a (keep (lead qs w a) w)]
        stats := st, byteOut := s.byteOut ++ b, wrAlign := al, wrCarry := c, ports := q }
      ∧ q.result = .noError

/-- R190, R200, R135: row 7. A full map with no earlier trigger goes without an address, compressed if the configuration
says so, and `last_iaddr` is kept. -/
def Obligations.FullMapIsSentWithoutAddress : Prop :=
  ∀ (s : State) (i : Instr) (n : Slot), Shifts s i n → s.nextSlot.q = true →
    s.thisSlot.exception = false → (s.thisSlot.ees && s.cfg0.getLsbD 4) = false → s.thisSlot.q = true →
    s.nextSlot.privilegeChange = false → s.resyncPend = false → s.thisSlot.unpredDisc = false →
    n.exception = false → n.privilegeChange = false → n.q = true → (s.mapSeen n).cnt = 31 →
    ∃ (st : Stats) (b : List Byte) (al : BitVec 3) (c : BitVec 7) (q : Ports),
      exec i s = .next { s with
        lastSlot := s.thisSlot, thisSlot := s.nextSlot, nextSlot := n
        map := ⟨0, 0⟩
        packetOut := s.packetOut ++ [Packet.branchFullNoaddr (s.mapSeen n).bits
          (if s.cfg0.getLsbD 5 then 32 - min 31 (seb 32 ((s.mapSeen n).bits.toNat * 2)) else 31)]
        stats := st, byteOut := s.byteOut ++ b, wrAlign := al, wrCarry := c, ports := q }
      ∧ q.result = .noError

/-- R192, R181: with no trigger there is no packet, and PROCESS changes nothing but the recorded outcome. -/
def Obligations.PredictableRecordOnlyRecordsItsBranch : Prop :=
  ∀ (s : State) (i : Instr) (n : Slot), Shifts s i n → s.nextSlot.q = true →
    s.thisSlot.exception = false → (s.thisSlot.ees && s.cfg0.getLsbD 4) = false → s.thisSlot.q = true →
    s.nextSlot.privilegeChange = false → s.resyncPend = false → s.thisSlot.unpredDisc = false →
    n.exception = false → n.privilegeChange = false → n.q = true → (s.mapSeen n).cnt ≠ 31 →
    ∃ q : Ports,
      exec i s = .next { s with
        lastSlot := s.thisSlot, thisSlot := s.nextSlot, nextSlot := n
        map := s.mapSeen n
        stats := { s.stats with instrs := (s.stats.instrs + 1) % 2 ^ s.params.statw }
        ports := q }
      ∧ q.result = .noError

/-- R203, R301: OP_STEP with a supported record and OP_END answer OK from every state, but where a SYNC/EXCEPTION does
not fit a frame. -/
def Obligations.EncodeAnswersOkUnlessOversized : Prop :=
  ∀ (s : State) (i : Instr) (n : Slot), Shifts s i n → s.overflows = false →
    ∃ t : State, exec i s = .next t ∧ t.ports.result = .noError ∧ t.nextSlot = n ∧ t.status = s.status

/-! ## OP_INJECT and emission -/

/-- R177: OP_INJECT emits a Timer or Software packet and leaves the window, the accumulator and `last_iaddr`; any other
packet raises `invalid` and changes nothing but STATUS. That the queued packet is the operand with its unused fields made
0 is the model's reading (log entry 10, DEDUCED), not R177's 'emit P'. -/
def Obligations.InjectEmitsTimerAndSoftwareOnly : Prop :=
  ∀ (s : State) (p : Packet),
    ((p.msgType = 1 ∨ p.msgType = 3) →
      ∃ (st : Stats) (b : List Byte) (al : BitVec 3) (c : BitVec 7) (q : Ports),
        exec (.opInject p) s = .next { s with
          packetOut := s.packetOut ++ [if p.msgType = 1 then Packet.timer p.time else Packet.software p.userdata]
          stats := st, byteOut := s.byteOut ++ b, wrAlign := al, wrCarry := c, ports := q }
        ∧ q.result = .noError)
    ∧ (¬ (p.msgType = 1 ∨ p.msgType = 3) →
      ∃ q : Ports, exec (.opInject p) s = .next { s with status := .invalid, ports := q } ∧ q.result = .invalid)

/-- R75, R77, R91, R242: the plain stream. Every operation but OP_RESET and OP_CONFIG, which drop the carry, appends to the
bits written so far exactly the bits of the packets it queues, one at most; OP_END then pads with 0 bits to a whole byte. -/
def Obligations.PlainStreamIsThePacketsInOrder : Prop :=
  ∀ (s t : State) (i : Instr), Cfg0.pulpFraming s.cfg0 = false → s.wrCarry.toNat < 2 ^ s.wrAlign.toNat →
    i ≠ .opReset → (∀ c0 c1, i ≠ .opConfig c0 c1) → exec i s = .next t →
    ∃ (ps : List Packet) (pad : Nat),
      ps.length ≤ 1 ∧ t.packetOut = s.packetOut ++ ps
      ∧ t.stream = s.stream ++ ps.flatMap (packetBits s.xlen true) ++ List.replicate pad false
      ∧ pad < 8 ∧ (pad ≠ 0 → i = .opEnd) ∧ (i = .opEnd → t.wrAlign = 0)
      ∧ t.wrCarry.toNat < 2 ^ t.wrAlign.toNat

/-- R76, R92, R243: the PULP stream. An operation appends to the byte queue exactly the whole frames of the packets it
queues, and the writer holds no carry. -/
def Obligations.PulpStreamIsWholeFrames : Prop :=
  ∀ (s t : State) (i : Instr), Cfg0.pulpFraming s.cfg0 = true → s.wrAlign = 0 → exec i s = .next t →
    ∃ ps : List Packet,
      ps.length ≤ 1 ∧ t.packetOut = s.packetOut ++ ps
      ∧ t.byteOut = s.byteOut ++ ps.flatMap (fun p => toBytes (frameOf (packetBits s.xlen s.params.pulpTval p)))
      ∧ t.wrAlign = 0 ∧ (s.wrCarry = 0 → t.wrCarry = 0)

/-- 10_state.md R34, R313: the counters after an operation that emitted the packet `p` (the bucket: log entry 16). -/
def Obligations.EmissionCountsThePacket : Prop :=
  ∀ (s t : State) (i : Instr) (p : Packet), exec i s = .next t → t.packetOut = s.packetOut ++ [p] →
    let w := s.xlen
    let add := fun (c k : Nat) => (c + k) % 2 ^ s.params.statw
    t.stats.pktBranchFull = (if p.kind = .branchFull ∨ p.kind = .branchFullNoaddr then add s.stats.pktBranchFull 1 else s.stats.pktBranchFull)
    ∧ t.stats.pktBranchDiff = (if p.kind = .branchDiff ∨ p.kind = .branchDiffNoaddr then add s.stats.pktBranchDiff 1 else s.stats.pktBranchDiff)
    ∧ t.stats.pktAddrOnly = (if p.kind = .addrOnly then add s.stats.pktAddrOnly 1 else s.stats.pktAddrOnly)
    ∧ t.stats.pktSyncStart = (if p.kind = .syncStart then add s.stats.pktSyncStart 1 else s.stats.pktSyncStart)
    ∧ t.stats.pktSyncException = (if p.kind = .syncException then add s.stats.pktSyncException 1 else s.stats.pktSyncException)
    ∧ t.stats.pktSoftware = (if p.kind = .software then add s.stats.pktSoftware 1 else s.stats.pktSoftware)
    ∧ t.stats.pktTimer = (if p.kind = .timer then add s.stats.pktTimer 1 else s.stats.pktTimer)
    ∧ t.stats.payloadBits = add s.stats.payloadBits (packetBits w true p).length
    ∧ t.stats.pulpBits = add s.stats.pulpBits
        (8 * (bytesFor (4 + (packetBits w s.params.pulpTval p).length)) *
          (if bytesFor (4 + (packetBits w s.params.pulpTval p).length) ≤ 17 then 1 else 0))
    ∧ t.stats.addrZero = (if p.hasAddress = true ∧ p.address.toNat % 2 ^ w = 0 then add s.stats.addrZero 1 else s.stats.addrZero)
    ∧ t.stats.addrOnes = (if p.hasAddress = true ∧ p.address.toNat % 2 ^ w = 2 ^ w - 1 then add s.stats.addrOnes 1 else s.stats.addrOnes)
    ∧ t.stats.sextHist = (if s.cfg0.getLsbD 1 = false ∧ (p.kind = .branchFull ∨ p.kind = .branchDiff ∨ p.kind = .addrOnly)
        then s.stats.sextHist.modify (p.addrBits - 1) (fun c => add c 1) else s.stats.sextHist)
    ∧ ((∃ r, i = .opStep r) → t.stats.instrs = add s.stats.instrs 1)
    ∧ ((∀ r, i ≠ .opStep r) → t.stats.instrs = s.stats.instrs)

/-- Under the invariant every packet that an operation queues has its fields in range and its variable fields
sign-consistent, so that a reader gives it back: for the packets the encoder builds the spec's own inference (R282, R157,
R137). That a packet OP_INJECT queues is canonical, its unused fields 0, is the model's reading (log entry 10, DEDUCED). -/
def Obligations.QueuedPacketsAreSignConsistent : Prop :=
  ∀ (s t : State) (i : Instr) (p : Packet), s.Inv → exec i s = .next t → t.packetOut = s.packetOut ++ [p] →
    p.fieldsOk s.xlen true = true ∧ p.reservedError = none ∧ p = p.canon s.xlen

/-! ## The serializer -/

/-- R232, R233: writing a BRANCH packet with an address in the plain framing. -/
def Obligations.PlainBranchWithAddressLayout : Prop :=
  ∀ (s : State) (align : Nat) (carry : Byte) (branches : Nat) (branchMap : BitVec 31) (mapBits : Nat) (address : Word)
    (addrBits : Nat), align < 8 → branches ≠ 0 →
    if branches ≤ 31 ∧ mapBits = bml branches ∧ 1 ≤ addrBits ∧ addrBits ≤ s.xlen then
      (∃ q : Ports, exec (.branchFullPlain (.write align carry) branches branchMap mapBits address addrBits) s = .next { s with ports := q }
        ∧ q.result = .noError
        ∧ q.ser = some ⟨toBytes (bitsOf align carry.toNat ++ (bitsOf 2 2 ++ bitsOf 2 0 ++ bitsOf 5 branches
            ++ bitsOf (bml branches) branchMap.toNat ++ bitsOf addrBits address.toNat)), some (9 + bml branches + addrBits)⟩)
      ∧ (∃ q : Ports, exec (.branchDiffPlain (.write align carry) branches branchMap mapBits address addrBits) s = .next { s with ports := q }
        ∧ q.result = .noError
        ∧ q.ser = some ⟨toBytes (bitsOf align carry.toNat ++ (bitsOf 2 2 ++ bitsOf 2 1 ++ bitsOf 5 branches
            ++ bitsOf (bml branches) branchMap.toNat ++ bitsOf addrBits address.toNat)), some (9 + bml branches + addrBits)⟩)
    else
      (∃ q : Ports, exec (.branchFullPlain (.write align carry) branches branchMap mapBits address addrBits) s
        = .next { s with status := .badPacket, ports := q } ∧ q.result = .badPacket)
      ∧ (∃ q : Ports, exec (.branchDiffPlain (.write align carry) branches branchMap mapBits address addrBits) s
        = .next { s with status := .badPacket, ports := q } ∧ q.result = .badPacket)

/-- R234, R235: writing a full map without an address, in either format, and an ADDR_ONLY packet in the plain framing. -/
def Obligations.PlainMapOnlyAndAddressOnlyLayout : Prop :=
  ∀ (s : State) (align : Nat) (carry : Byte) (branchMap : BitVec 31) (mapBits : Nat) (address : Word) (addrBits : Nat),
    align < 8 →
    (if 1 ≤ mapBits ∧ mapBits ≤ 31 then
      (∃ q : Ports, exec (.branchFullNoaddrPlain (.write align carry) branchMap mapBits) s = .next { s with ports := q }
        ∧ q.result = .noError
        ∧ q.ser = some ⟨toBytes (bitsOf align carry.toNat ++ (bitsOf 2 2 ++ bitsOf 2 0 ++ bitsOf 5 0
            ++ bitsOf mapBits branchMap.toNat)), some (9 + mapBits)⟩)
      ∧ (∃ q : Ports, exec (.branchDiffNoaddrPlain (.write align carry) branchMap mapBits) s = .next { s with ports := q }
        ∧ q.result = .noError
        ∧ q.ser = some ⟨toBytes (bitsOf align carry.toNat ++ (bitsOf 2 2 ++ bitsOf 2 1 ++ bitsOf 5 0
            ++ bitsOf mapBits branchMap.toNat)), some (9 + mapBits)⟩)
    else
      (∃ q : Ports, exec (.branchFullNoaddrPlain (.write align carry) branchMap mapBits) s
        = .next { s with status := .badPacket, ports := q } ∧ q.result = .badPacket)
      ∧ (∃ q : Ports, exec (.branchDiffNoaddrPlain (.write align carry) branchMap mapBits) s
        = .next { s with status := .badPacket, ports := q } ∧ q.result = .badPacket))
    ∧ (if 1 ≤ addrBits ∧ addrBits ≤ s.xlen then
      ∃ q : Ports, exec (.addrOnlyPlain (.write align carry) address addrBits) s = .next { s with ports := q }
        ∧ q.result = .noError
        ∧ q.ser = some ⟨toBytes (bitsOf align carry.toNat ++ (bitsOf 2 2 ++ bitsOf 2 2 ++ bitsOf addrBits address.toNat)),
            some (4 + addrBits)⟩
    else
      ∃ q : Ports, exec (.addrOnlyPlain (.write align carry) address addrBits) s
        = .next { s with status := .badPacket, ports := q } ∧ q.result = .badPacket)

/-- R236, R240, R241, and R237 in the plain framing: writing the packets of fixed length; a SYNC/EXCEPTION carries tval. -/
def Obligations.PlainFixedLengthLayout : Prop :=
  ∀ (s : State) (align : Nat) (carry : Byte) (privilege : BitVec 3) (branch : Bool) (address : Word) (cause : BitVec 5)
    (interrupt : Bool) (tval : Word) (time : BitVec 64) (userdata : BitVec 32), align < 8 →
    (∃ q : Ports, exec (.syncStartPlain (.write align carry) privilege branch address) s = .next { s with ports := q }
      ∧ q.result = .noError
      ∧ q.ser = some ⟨toBytes (bitsOf align carry.toNat ++ (bitsOf 2 2 ++ bitsOf 2 3 ++ bitsOf 2 0
          ++ bitsOf 3 privilege.toNat ++ bitsOf 2 0 ++ bitsOf 1 branch.toNat ++ bitsOf s.xlen address.toNat)), some (12 + s.xlen)⟩)
    ∧ (∃ q : Ports, exec (.syncExceptionPlain (.write align carry) privilege branch address cause interrupt tval) s = .next { s with ports := q }
      ∧ q.result = .noError
      ∧ q.ser = some ⟨toBytes (bitsOf align carry.toNat ++ (bitsOf 2 2 ++ bitsOf 2 3 ++ bitsOf 2 1
          ++ bitsOf 3 privilege.toNat ++ bitsOf 2 0 ++ bitsOf 1 branch.toNat ++ bitsOf s.xlen address.toNat
          ++ bitsOf 5 cause.toNat ++ bitsOf 1 interrupt.toNat ++ bitsOf s.xlen tval.toNat)), some (18 + 2 * s.xlen)⟩)
    ∧ (∃ q : Ports, exec (.timerPlain (.write align carry) time) s = .next { s with ports := q }
      ∧ q.result = .noError
      ∧ q.ser = some ⟨toBytes (bitsOf align carry.toNat ++ (bitsOf 2 1 ++ bitsOf 64 time.toNat)), some 66⟩)
    ∧ (∃ q : Ports, exec (.softwarePlain (.write align carry) userdata) s = .next { s with ports := q }
      ∧ q.result = .noError
      ∧ q.ser = some ⟨toBytes (bitsOf align carry.toNat ++ (bitsOf 2 3 ++ bitsOf s.xlen userdata.toNat)), some (2 + s.xlen)⟩)

/-- R238, R239, R245: the reserved kinds raise their error in both framings, and nothing is written. -/
def Obligations.ReservedPacketsAreNeverWritten : Prop :=
  ∀ (s : State) (align : Nat) (carry : Byte) (privilege : BitVec 3), align < 8 →
    (∃ q : Ports, exec (.syncContextPlain (.write align carry) privilege) s
      = .next { s with status := .unimplemented, ports := q } ∧ q.result = .unimplemented ∧ q.ser = none)
    ∧ (∃ q : Ports, exec (.syncContextPulp .write privilege) s
      = .next { s with status := .unimplemented, ports := q } ∧ q.result = .unimplemented ∧ q.ser = none)
    ∧ (∃ q : Ports, exec (.syncReservedPlain (.write align carry) privilege) s
      = .next { s with status := .badPacket, ports := q } ∧ q.result = .badPacket ∧ q.ser = none)
    ∧ (∃ q : Ports, exec (.syncReservedPulp .write privilege) s
      = .next { s with status := .badPacket, ports := q } ∧ q.result = .badPacket ∧ q.ser = none)
    ∧ (∃ q : Ports, exec (.reservedMsg0Plain (.write align carry)) s
      = .next { s with status := .badPacket, ports := q } ∧ q.result = .badPacket ∧ q.ser = none)
    ∧ (∃ q : Ports, exec (.reservedMsg0Pulp .write) s
      = .next { s with status := .badPacket, ports := q } ∧ q.result = .badPacket ∧ q.ser = none)

/-- R92: the frame of a body of at least 5 bits: the length nibble, the body, copies of its last bit to whole bytes. -/
def Obligations.FrameHoldsLengthBodyAndFill : Prop :=
  ∀ b : Bits, 5 ≤ b.length →
    let len := (4 + b.length + 7) / 8 - 2
    ∃ last : Bool, b.getLast? = some last
      ∧ frameOf b = bitsOf 4 len ++ b ++ List.replicate (8 * (len + 2) - (4 + b.length)) last
      ∧ (toBytes (frameOf b)).length = len + 2
      ∧ ∀ first rest, toBytes (frameOf b) = first :: rest → first.toNat % 16 = len % 16

/-- R243 with R232 to R235: writing the packets with a variable field in the PULP framing. -/
def Obligations.PulpBranchAndAddressLayout : Prop :=
  ∀ (s : State) (branches : Nat) (branchMap : BitVec 31) (mapBits : Nat) (address : Word) (addrBits : Nat),
    (branches ≠ 0 → branches ≤ 31 → mapBits = bml branches → 1 ≤ addrBits → addrBits ≤ s.xlen →
      (∃ q : Ports, exec (.branchFullPulp .write branches branchMap mapBits address addrBits) s = .next { s with ports := q }
        ∧ q.result = .noError
        ∧ q.ser = some ⟨toBytes (frameOf (bitsOf 2 2 ++ bitsOf 2 0 ++ bitsOf 5 branches
            ++ bitsOf (bml branches) branchMap.toNat ++ bitsOf addrBits address.toNat)), none⟩)
      ∧ (∃ q : Ports, exec (.branchDiffPulp .write branches branchMap mapBits address addrBits) s = .next { s with ports := q }
        ∧ q.result = .noError
        ∧ q.ser = some ⟨toBytes (frameOf (bitsOf 2 2 ++ bitsOf 2 1 ++ bitsOf 5 branches
            ++ bitsOf (bml branches) branchMap.toNat ++ bitsOf addrBits address.toNat)), none⟩))
    ∧ (1 ≤ mapBits → mapBits ≤ 31 →
      (∃ q : Ports, exec (.branchFullNoaddrPulp .write branchMap mapBits) s = .next { s with ports := q }
        ∧ q.result = .noError
        ∧ q.ser = some ⟨toBytes (frameOf (bitsOf 2 2 ++ bitsOf 2 0 ++ bitsOf 5 0 ++ bitsOf mapBits branchMap.toNat)), none⟩)
      ∧ (∃ q : Ports, exec (.branchDiffNoaddrPulp .write branchMap mapBits) s = .next { s with ports := q }
        ∧ q.result = .noError
        ∧ q.ser = some ⟨toBytes (frameOf (bitsOf 2 2 ++ bitsOf 2 1 ++ bitsOf 5 0 ++ bitsOf mapBits branchMap.toNat)), none⟩))
    ∧ (1 ≤ addrBits → addrBits ≤ s.xlen →
      ∃ q : Ports, exec (.addrOnlyPulp .write address addrBits) s = .next { s with ports := q }
        ∧ q.result = .noError
        ∧ q.ser = some ⟨toBytes (frameOf (bitsOf 2 2 ++ bitsOf 2 2 ++ bitsOf addrBits address.toNat)), none⟩)

/-- R243, R244 with R236, R237, R240, R241: writing the packets of fixed length in the PULP framing. A SYNC/EXCEPTION
carries tval only if P_PULP_TVAL is 1, and then does not fit a frame when XLEN is 64. -/
def Obligations.PulpFixedLengthLayout : Prop :=
  ∀ (s : State) (privilege : BitVec 3) (branch : Bool) (address : Word) (cause : BitVec 5)
    (interrupt : Bool) (tval : Word) (time : BitVec 64) (userdata : BitVec 32),
    (∃ q : Ports, exec (.syncStartPulp .write privilege branch address) s = .next { s with ports := q }
      ∧ q.result = .noError
      ∧ q.ser = some ⟨toBytes (frameOf (bitsOf 2 2 ++ bitsOf 2 3 ++ bitsOf 2 0
          ++ bitsOf 3 privilege.toNat ++ bitsOf 2 0 ++ bitsOf 1 branch.toNat ++ bitsOf s.xlen address.toNat)), none⟩)
    ∧ (if s.params.pulpTval = true ∧ s.xlen = 64 then
        ∃ q : Ports, exec (.syncExceptionPulp .write privilege branch address cause interrupt tval) s
          = .next { s with status := .badPacket, ports := q } ∧ q.result = .badPacket
      else
        ∃ q : Ports, exec (.syncExceptionPulp .write privilege branch address cause interrupt tval) s = .next { s with ports := q }
          ∧ q.result = .noError
          ∧ q.ser = some ⟨toBytes (frameOf (bitsOf 2 2 ++ bitsOf 2 3 ++ bitsOf 2 1
              ++ bitsOf 3 privilege.toNat ++ bitsOf 2 0 ++ bitsOf 1 branch.toNat ++ bitsOf s.xlen address.toNat
              ++ bitsOf 5 cause.toNat ++ bitsOf 1 interrupt.toNat
              ++ (if s.params.pulpTval then bitsOf s.xlen tval.toNat else []))), none⟩)
    ∧ (∃ q : Ports, exec (.timerPulp .write time) s = .next { s with ports := q }
      ∧ q.result = .noError
      ∧ q.ser = some ⟨toBytes (frameOf (bitsOf 2 1 ++ bitsOf 64 time.toNat)), none⟩)
    ∧ (∃ q : Ports, exec (.softwarePulp .write userdata) s = .next { s with ports := q }
      ∧ q.result = .noError
      ∧ q.ser = some ⟨toBytes (frameOf (bitsOf 2 3 ++ bitsOf s.xlen userdata.toNat)), none⟩)

/-- R231, R242, R244: OP_SER_PLAIN and OP_SER_PULP on any packet: the checks in their order, the first that applies
gives the error; a packet that passes them is written. -/
def Obligations.SerializerChecksInOrder : Prop :=
  ∀ (s : State) (p : Packet) (align : Nat) (carry : Byte),
    let w := s.xlen
    let trace := p.msgType = 2
    let bad : Prop := p.msgType = 0 ∨ (trace ∧ p.format = 3 ∧ p.subformat = 3)
      ∨ (trace ∧ (p.format = 0 ∨ p.format = 1) ∧ 31 < p.branches)
      ∨ (trace ∧ (p.format = 0 ∨ p.format = 1) ∧ 1 ≤ p.branches ∧ p.branches ≤ 31
          ∧ (p.mapBits ≠ bml p.branches ∨ p.addrBits < 1 ∨ w < p.addrBits))
      ∨ (trace ∧ (p.format = 0 ∨ p.format = 1) ∧ p.branches = 0 ∧ (p.mapBits < 1 ∨ 31 < p.mapBits))
      ∨ (trace ∧ p.format = 2 ∧ (p.addrBits < 1 ∨ w < p.addrBits))
    let context : Prop := trace ∧ p.format = 3 ∧ p.subformat = 2
    let long : Prop := 136 < 4 + (packetBits w s.params.pulpTval p).length
    (8 ≤ align → ∃ q : Ports, exec (.opSerPlain p align carry) s = .next { s with status := .invalid, ports := q } ∧ q.result = .invalid)
    ∧ (align < 8 → bad → ∃ q : Ports, exec (.opSerPlain p align carry) s = .next { s with status := .badPacket, ports := q } ∧ q.result = .badPacket)
    ∧ (align < 8 → context → ∃ q : Ports, exec (.opSerPlain p align carry) s = .next { s with status := .unimplemented, ports := q } ∧ q.result = .unimplemented)
    ∧ (align < 8 → ¬ bad → ¬ context → ∃ q : Ports, exec (.opSerPlain p align carry) s = .next { s with ports := q } ∧ q.result = .noError
        ∧ q.ser = some ⟨toBytes (bitsOf align carry.toNat ++ packetBits w true p), some (packetBits w true p).length⟩)
    ∧ (bad → ∃ q : Ports, exec (.opSerPulp p) s = .next { s with status := .badPacket, ports := q } ∧ q.result = .badPacket)
    ∧ (context → ∃ q : Ports, exec (.opSerPulp p) s = .next { s with status := .unimplemented, ports := q } ∧ q.result = .unimplemented)
    ∧ (¬ bad → ¬ context → long → ∃ q : Ports, exec (.opSerPulp p) s = .next { s with status := .badPacket, ports := q } ∧ q.result = .badPacket)
    ∧ (¬ bad → ¬ context → ¬ long → ∃ q : Ports, exec (.opSerPulp p) s = .next { s with ports := q } ∧ q.result = .noError
        ∧ q.ser = some ⟨toBytes (frameOf (packetBits w s.params.pulpTval p)), none⟩)

/-- R41, R231: the fields a kind does not use are ignored: OP_SER_PLAIN and OP_SER_PULP on a packet do what writing the
packet's row does. -/
def Obligations.SerializingAPacketIsWritingItsRow : Prop :=
  ∀ (s : State) (p : Packet) (align : Nat) (carry : Byte),
    exec (.opSerPlain p align carry) s = exec (p.plainInstr (.write align carry)) s
    ∧ exec (.opSerPulp p) s = exec (p.pulpInstr .write) s

/-! ## Bits, bytes and the deserializer -/

/-- 20_memory.md R71, R72: fields are placed least significant bit first, and stream bit i is bit i mod 8 of byte i / 8,
with 0 bits after the string's end. -/
def Obligations.BitsAndBytesAreLeastSignificantFirst : Prop :=
  (∀ w v i : Nat, (bitsOf w v)[i]? = if i < w then some (v.testBit i) else none)
  ∧ (∀ (s : Bits) (k j : Nat), j < 8 → k < (s.length + 7) / 8 →
      ∃ b : Byte, (toBytes s)[k]? = some b ∧ b.getLsbD j = s.getD (8 * k + j) false)
  ∧ (∀ (bytes : List Byte) (k j : Nat), j < 8 → (ofBytes bytes)[8 * k + j]? = (bytes[k]?).map (fun b => b.getLsbD j))

/-- R280, R82: OP_DES_PLAIN: the checks of its operands, then the parse of the `n` bits from `align` on. -/
def Obligations.DesPlainParsesTheBitsAtAlign : Prop :=
  ∀ (s : State) (bytes : List Byte) (align n : Nat),
    let bits := ((ofBytes bytes).drop align).take n
    (8 ≤ align → ∃ q : Ports, exec (.opDesPlain bytes align n) s = .next { s with status := .invalid, ports := q } ∧ q.result = .invalid)
    ∧ (align < 8 → bytes.length < (align + n + 7) / 8 →
        ∃ q : Ports, exec (.opDesPlain bytes align n) s = .next { s with status := .badPacket, ports := q } ∧ q.result = .badPacket)
    ∧ (∀ e, align < 8 → (align + n + 7) / 8 ≤ bytes.length → deserialize s.xlen true bits = .error e →
        ∃ q : Ports, exec (.opDesPlain bytes align n) s = .next { s with status := e, ports := q } ∧ q.result = e)
    ∧ (∀ p, align < 8 → (align + n + 7) / 8 ≤ bytes.length → deserialize s.xlen true bits = .ok p →
        bits.length = n ∧ ∃ q : Ports, exec (.opDesPlain bytes align n) s = .next { s with ports := q } ∧ q.result = .noError
          ∧ q.des = some ⟨p, (align + n) / 8, some ((align + n) % 8)⟩)

/-- R281: OP_DES_PULP: the length nibble, the length check, then the parse of the frame's bits after the nibble. -/
def Obligations.DesPulpParsesOneFrame : Prop :=
  ∀ (s : State),
    (∃ q : Ports, exec (.opDesPulp []) s = .next { s with status := .badPacket, ports := q } ∧ q.result = .badPacket)
    ∧ ∀ (b : Byte) (rest : List Byte),
      let len := b.toNat % 16
      let bits := (ofBytes ((b :: rest).take (len + 2))).drop 4
      (rest.length < len + 1 →
        ∃ q : Ports, exec (.opDesPulp (b :: rest)) s = .next { s with status := .badPacket, ports := q } ∧ q.result = .badPacket)
      ∧ (∀ e, len + 1 ≤ rest.length → deserialize s.xlen s.params.pulpTval bits = .error e →
        ∃ q : Ports, exec (.opDesPulp (b :: rest)) s = .next { s with status := e, ports := q } ∧ q.result = e)
      ∧ (∀ p, len + 1 ≤ rest.length → deserialize s.xlen s.params.pulpTval bits = .ok p →
        bits.length = 8 * (len + 2) - 4
          ∧ ∃ q : Ports, exec (.opDesPulp (b :: rest)) s = .next { s with ports := q } ∧ q.result = .noError
            ∧ q.des = some ⟨p, len + 2, none⟩)

/-- R271: the errors of PARSE, with `rd` the read of R270. -/
def Obligations.ParseRejectsReservedAndTruncated : Prop :=
  ∀ (w : Nat) (tv : Bool) (s : Bits),
    let n := s.length
    let rd := readBits s
    ((n < 2 ∨ rd 0 2 = 0 ∨ (rd 0 2 = 1 ∧ n < 66) ∨ (rd 0 2 = 3 ∧ n < 2 + w)
      ∨ (rd 0 2 = 2 ∧ (n < 4
        ∨ (rd 2 2 ≤ 1 ∧ (n < 9 ∨ (rd 4 5 ≠ 0 ∧ n < 9 + bml (rd 4 5) + 1) ∨ (rd 4 5 = 0 ∧ n < 10)))
        ∨ (rd 2 2 = 2 ∧ n < 5)
        ∨ (rd 2 2 = 3 ∧ (n < 6 ∨ rd 4 2 = 3 ∨ (rd 4 2 = 0 ∧ n < 12 + w)
          ∨ (rd 4 2 = 1 ∧ n < 18 + w + (if tv then w else 0))))))) →
      deserialize w tv s = .error .badPacket)
    ∧ (6 ≤ n → rd 0 2 = 2 → rd 2 2 = 3 → rd 4 2 = 2 → deserialize w tv s = .error .unimplemented)

/-- R272, R273, R274: PARSE of the BRANCH packets, with and without an address. -/
def Obligations.ParseReadsBranchPackets : Prop :=
  ∀ (w : Nat) (tv : Bool) (s : Bits),
    let n := s.length
    let rd := readBits s
    let b := rd 4 5
    let m := min 31 (n - 9)
    let a := min w (n - 9 - bml b)
    4 ≤ n → rd 0 2 = 2 → rd 2 2 ≤ 1 →
    (b ≠ 0 → 9 + bml b + 1 ≤ n →
      deserialize w tv s = .ok { Packet.zero with
        msgType := 2, format := BitVec.ofNat 2 (rd 2 2), branches := b
        branchMap := BitVec.ofNat 31 (rd 9 (bml b)), mapBits := bml b
        address := BitVec.ofNat 64 (sext w a (rd (9 + bml b) a)), addrBits := a })
    ∧ (b = 0 → 10 ≤ n →
      deserialize w tv s = .ok { Packet.zero with
        msgType := 2, format := BitVec.ofNat 2 (rd 2 2)
        branchMap := BitVec.ofNat 31 (sext 31 m (rd 9 m)), mapBits := m })

/-- R275 to R279: PARSE of ADDR_ONLY, SYNC/START, SYNC/EXCEPTION, Software and Timer packets; the SYNC reserved bits are
ignored. -/
def Obligations.ParseReadsTheOtherPackets : Prop :=
  ∀ (w : Nat) (tv : Bool) (s : Bits),
    let n := s.length
    let rd := readBits s
    let a := min w (n - 4)
    (5 ≤ n → rd 0 2 = 2 → rd 2 2 = 2 →
      deserialize w tv s = .ok { Packet.zero with
        msgType := 2, format := 2, address := BitVec.ofNat 64 (sext w a (rd 4 a)), addrBits := a })
    ∧ (12 + w ≤ n → rd 0 2 = 2 → rd 2 2 = 3 → rd 4 2 = 0 →
      deserialize w tv s = .ok { Packet.zero with
        msgType := 2, format := 3, subformat := 0, privilege := BitVec.ofNat 3 (rd 6 3), branch := decide (rd 11 1 = 1)
        address := BitVec.ofNat 64 (rd 12 w), addrBits := w })
    ∧ (18 + w + (if tv then w else 0) ≤ n → rd 0 2 = 2 → rd 2 2 = 3 → rd 4 2 = 1 →
      deserialize w tv s = .ok { Packet.zero with
        msgType := 2, format := 3, subformat := 1, privilege := BitVec.ofNat 3 (rd 6 3), branch := decide (rd 11 1 = 1)
        address := BitVec.ofNat 64 (rd 12 w), addrBits := w
        cause := BitVec.ofNat 5 (rd (12 + w) 5), interrupt := decide (rd (17 + w) 1 = 1)
        tval := if tv then BitVec.ofNat 64 (rd (18 + w) w) else 0 })
    ∧ (2 + w ≤ n → rd 0 2 = 3 →
      deserialize w tv s = .ok { Packet.zero with msgType := 3, userdata := BitVec.ofNat 32 (rd 2 w % 2 ^ 32) })
    ∧ (66 ≤ n → rd 0 2 = 1 →
      deserialize w tv s = .ok { Packet.zero with msgType := 1, time := BitVec.ofNat 64 (rd 2 64) })

/-- The model's own convention (log entry 1): a packet row asked to be read answers the packet of its operands when the
bits suffice (44_deserializer.md R271), with what a deserializer operation returns (R280, R281). -/
def Obligations.ReadingARowAnswersItsPacket : Prop :=
  ∀ (s : State) (p : Packet), p.reservedError = none →
    (∀ align n, align < 8 → minBits s.xlen true p ≤ n →
      ∃ q : Ports, exec (p.plainInstr (.read align n)) s = .next { s with ports := q } ∧ q.result = .noError
        ∧ q.des = some ⟨p.canon s.xlen, (align + n) / 8, some ((align + n) % 8)⟩)
    ∧ (∀ len : BitVec 4, minBits s.xlen s.params.pulpTval p ≤ 8 * (len.toNat + 2) - 4 →
      ∃ q : Ports, exec (p.pulpInstr (.read len)) s = .next { s with ports := q } ∧ q.result = .noError
        ∧ q.des = some ⟨p.canon s.xlen, len.toNat + 2, none⟩)

/-- R280, R281 (and log entries 1 and 12): OP_DES_PLAIN and OP_DES_PULP do what decoding the same bytes and running the
decoded packet row does, errors included. -/
def Obligations.DeserializingIsDecodingAndRunning : Prop :=
  ∀ (s : State) (bytes : List Byte) (align n : Nat),
    (exec (.opDesPlain bytes align n) s =
      match decode (Cfg0.arch64 s.cfg0) s.params.pulpTval (.plain bytes align n) with
      | .ok i => exec i s
      | .error e => .next (s.fail e))
    ∧ (exec (.opDesPulp bytes) s =
      match decode (Cfg0.arch64 s.cfg0) s.params.pulpTval (.pulp bytes) with
      | .ok i => exec i s
      | .error e => .next (s.fail e))

/-- R282 (a): a packet written in the plain framing is read back unchanged, at every alignment and after every carry. -/
def Obligations.PlainPacketRoundTrip : Prop :=
  ∀ (s : State) (p : Packet) (align : Nat) (carry : Byte), align < 8 → p.reservedError = none →
    p.fieldsOk s.xlen true = true → p = p.canon s.xlen →
    ∃ (t u : State) (bytes : List Byte) (n : Nat),
      exec (.opSerPlain p align carry) s = .next t ∧ t.ports.ser = some ⟨bytes, some n⟩
      ∧ exec (.opDesPlain bytes align n) s = .next u
      ∧ u.ports.des = some ⟨p, (align + n) / 8, some ((align + n) % 8)⟩

/-- R282 (b): a packet written as a PULP frame is read back with the same values; `addr_bits` and `map_bits` may grow to
take in the fill, and tval is 0 unless P_PULP_TVAL is 1. The whole frame is consumed. -/
def Obligations.PulpPacketRoundTrip : Prop :=
  ∀ (s : State) (p : Packet), p.reservedError = none → p.fieldsOk s.xlen true = true → p = p.canon s.xlen →
    (p.kind = .syncException → s.params.pulpTval = false ∨ s.xlen = 32) →
    ∃ (t u : State) (bytes : List Byte) (mapBits addrBits : Nat),
      exec (.opSerPulp p) s = .next t ∧ t.ports.ser = some ⟨bytes, none⟩
      ∧ exec (.opDesPulp bytes) s = .next u
      ∧ u.ports.des = some ⟨{ p with
          mapBits := mapBits, addrBits := addrBits, tval := if s.params.pulpTval then p.tval else 0 }, bytes.length, none⟩
      ∧ p.mapBits ≤ mapBits ∧ mapBits ≤ 31 ∧ p.addrBits ≤ addrBits ∧ addrBits ≤ s.xlen

/-- R282 (c): bytes that the serializer made, parsed and serialized again, are the same bytes, in both framings. -/
def Obligations.SerializingAParsedPacketAgain : Prop :=
  ∀ (s t u v : State) (p : Packet),
    (∀ (align : Nat) (carry : Byte) (bytes : List Byte) (n : Nat) (o : DesOut),
      exec (.opSerPlain p align carry) s = .next t → t.ports.ser = some ⟨bytes, some n⟩ →
      exec (.opDesPlain bytes align n) s = .next u → u.ports.des = some o →
      exec (.opSerPlain o.packet align carry) s = .next v → v.ports.ser = some ⟨bytes, some n⟩)
    ∧ (∀ (bytes : List Byte) (o : DesOut),
      exec (.opSerPulp p) s = .next t → t.ports.ser = some ⟨bytes, none⟩ →
      exec (.opDesPulp bytes) s = .next u → u.ports.des = some o →
      exec (.opSerPulp o.packet) s = .next v → v.ports.ser = some ⟨bytes, none⟩)

/-! ## The packer and the accumulator -/

/-- R150: SEB is the largest k for which the top k bits are all zeros or all ones. -/
def Obligations.SebIsTheLongestUniformTop : Prop :=
  ∀ w x : Nat, 1 ≤ w → x < 2 ^ w →
    1 ≤ seb w x ∧ seb w x ≤ w
    ∧ ∀ k, 1 ≤ k → k ≤ w → ((x / 2 ^ (w - k) = 0 ∨ x / 2 ^ (w - k) = 2 ^ k - 1) ↔ k ≤ seb w x)

/-- Complement, the two extreme values, and the shortest width that sign-extends back: an inference that the spec marks
as its own (41_address_packer.md R151, "[derived: from rule R150]"). -/
def Obligations.SebProperties : Prop :=
  ∀ w x : Nat, 1 ≤ w → x < 2 ^ w →
    seb w (2 ^ w - 1 - x) = seb w x
    ∧ (seb w x = w ↔ x = 0 ∨ x = 2 ^ w - 1)
    ∧ sext w (w - seb w x + 1) (x % 2 ^ (w - seb w x + 1)) = x
    ∧ ∀ k, 1 ≤ k → k < w - seb w x + 1 → sext w k (x % 2 ^ k) ≠ x

/-- R152, R153, R154, R157: the bits the packer keeps are 1 to W, and sign-extending them gives the value back. -/
def Obligations.KeptBitsGiveTheValueBack : Prop :=
  ∀ (arch64 qs : Bool) (x : Word), x.toNat < 2 ^ xlen arch64 →
    let w := xlen arch64
    let l := if qs then
        (if seb w x.toNat < 9 then 0 else if seb w x.toNat < 17 then 9 else if seb w x.toNat < 25 then 17 else 25)
      else seb w x.toNat
    lead qs w x = l ∧ keep (lead qs w x) w = min w (w - l + 1)
    ∧ 1 ≤ min w (w - l + 1) ∧ min w (w - l + 1) ≤ w
    ∧ sext w (min w (w - l + 1)) (x.toNat % 2 ^ min w (w - l + 1)) = x.toNat

/-- R135: the width of a full map, 31 without compression, and sign extension to 31 bits gives the map back. -/
def Obligations.FullMapWidthGivesTheMapBack : Prop :=
  ∀ bits : BitVec 31,
    fullmapBits false bits = 31
    ∧ fullmapBits true bits = 31 - min 31 (seb 32 (bits.toNat * 2 % 2 ^ 32)) + 1
    ∧ 1 ≤ fullmapBits true bits ∧ fullmapBits true bits ≤ 31
    ∧ sext 31 (fullmapBits true bits) (bits.toNat % 2 ^ fullmapBits true bits) = bits.toNat

/-- R131, R132, R133: an outcome is 1 when the next record sits at the branch's fall-through address, and is written to
bit `cnt`; the other bits are kept and the count goes up. -/
def Obligations.BranchOutcomeIsRecordedAtTheCount : Prop :=
  ∀ (arch64 : Bool) (this next : Slot) (m : BranchMap), next.iaddr.toNat < 2 ^ xlen arch64 → m.cnt.toNat ≤ 30 →
    (notTaken (xlen arch64) this next = true ↔
      (this.iaddr.toNat + (if this.compressed then 2 else 4)) % 2 ^ xlen arch64 = next.iaddr.toNat)
    ∧ ∀ b : Bool, (m.record b).cnt.toNat = m.cnt.toNat + 1
      ∧ ∀ i, i < 31 → (m.record b).bits.getLsbD i = if i = m.cnt.toNat then b else m.bits.getLsbD i

/-! ## The whole machine -/

/-- R8, R301, R302, R33: every instruction answers a next state from every state, with OK or one of four codes; STATUS
changes only by a failure, OP_CLEAR_STATUS, OP_CONFIG and OP_RESET. -/
def Obligations.EveryInstructionAnswersOkOrOneOfFourCodes : Prop :=
  ∀ (i : Instr) (s : State), ∃ t : State, exec i s = .next t
    ∧ (t.ports.result = .noError ∨ t.ports.result = .invalid ∨ t.ports.result = .badPacket
      ∨ t.ports.result = .badInstr ∨ t.ports.result = .unimplemented)
    ∧ (t.ports.result = .badInstr → ∃ r, i = .opStep r)
    ∧ (t.ports.result ≠ .noError → t.status = t.ports.result)
    ∧ (t.ports.result = .noError → t.status = s.status
        ∨ (t.status = .noError ∧ (i = .opReset ∨ i = .opClearStatus ∨ ∃ c0 c1, i = .opConfig c0 c1)))

/-- R304, R305, R314: an operation that answers an error leaves everything but STATUS, the statistics and the ports, and
STATUS holds the error. -/
def Obligations.FailedOperationKeepsTheState : Prop :=
  ∀ (i : Instr) (s t : State), exec i s = .next t → t.ports.result ≠ .noError →
    t = { s with status := t.ports.result, stats := t.stats, ports := t.ports }

/-- 10_state.md R36, R42, R201, R78: the output queues only grow, by one packet at most, and only OP_STEP, OP_END and
OP_INJECT grow them. -/
def Obligations.OutputQueuesOnlyGrow : Prop :=
  ∀ (i : Instr) (s t : State), exec i s = .next t →
    ∃ (ps : List Packet) (bs : List Byte),
      t.packetOut = s.packetOut ++ ps ∧ t.byteOut = s.byteOut ++ bs ∧ ps.length ≤ 1
      ∧ ((ps ≠ [] ∨ bs ≠ []) → (∃ r, i = .opStep r) ∨ i = .opEnd ∨ ∃ p, i = .opInject p)

/-- R78, R283, 42_encoder_fsm.md R170: the packet rows, the serializer and deserializer operations and OP_READ change
no state but the ports, and STATUS when they fail. -/
def Obligations.PureOperationsChangeOnlyPorts : Prop :=
  ∀ (i : Instr) (s t : State), exec i s = .next t →
    i ≠ .opReset → (∀ c0 c1, i ≠ .opConfig c0 c1) → (∀ r, i ≠ .opStep r) → i ≠ .opEnd → (∀ p, i ≠ .opInject p) →
    i ≠ .opClearStatus →
    t = { s with status := if t.ports.result = .noError then s.status else t.ports.result, ports := t.ports }

/-- R21, R22, R23, R31: only OP_CONFIG and OP_RESET change the configuration, nothing but they write the resync pair,
and no operation changes the parameters. -/
def Obligations.ConfigurationChangesOnlyByConfig : Prop :=
  ∀ (i : Instr) (s t : State), exec i s = .next t →
    t.params = s.params ∧ t.opIn = s.opIn
    ∧ (i ≠ .opReset → (∀ c0 c1, i ≠ .opConfig c0 c1) →
      t.cfg0 = s.cfg0 ∧ t.cfg1 = s.cfg1 ∧ t.resyncCnt = s.resyncCnt ∧ t.resyncPend = s.resyncPend)

/-- 10_state.md R22, R34, 42_encoder_fsm.md R178: `resync_max` and the statistics never act: whatever they hold, every
operation leaves the same state and answers, but for CFG1 and the statistics themselves and what OP_READ shows of them. -/
def Obligations.ResyncMaxAndStatisticsNeverAct : Prop :=
  ∀ (i : Instr) (s t u : State) (c : BitVec 32) (x : Stats),
    exec i s = .next t → exec i { s with cfg1 := c, stats := x } = .next u →
    u = { t with cfg1 := u.cfg1, stats := u.stats, ports := { t.ports with read := u.ports.read } }

/-- The invariant holds at power-on (R341, R343). -/
def Obligations.ResetMeetsTheInvariant : Prop := State.reset.Inv

/-- R29, R136, R137, R202, R32, R76, R21, R25 to R27, R31, R34: every step from a state that meets the invariant
answers a state that meets it. -/
def Obligations.EveryStepKeepsTheInvariant : Prop :=
  ∀ s t : State, s.Inv → step s = .next t → t.Inv

/-- Log entries 2 and 12: a step runs the instruction that the next request decodes to, with the request taken; an encoded
packet that cannot be read ends with its error; with no request the block holds its state (R343, R315). -/
def Obligations.StepRunsTheDecodedRequest : Prop :=
  ∀ s : State,
    (s.opIn = [] → step s = .next s)
    ∧ ∀ (r : Request) (rest : List Request), s.opIn = r :: rest →
      (∀ i, decode (Cfg0.arch64 s.cfg0) s.params.pulpTval r = .ok i → step s = exec i { s with opIn := rest })
      ∧ (∀ e, decode (Cfg0.arch64 s.cfg0) s.params.pulpTval r = .error e →
        ∃ q : Ports, step s = .next { s with opIn := rest, status := e, ports := q } ∧ q.result = e)

/-! ## Encoding -/

/-- R91, R92, R105: for every well-formed instruction, decoding its encoding gives it back with every operand. -/
def Obligations.DecodeOfEncodeIsTheInstruction : Prop :=
  ∀ (arch64 tv : Bool) (i : Instr), i.wf arch64 tv = true → decode arch64 tv (encode arch64 tv i) = .ok i

/-- Words of the spec (95_test_vectors.md section 1, 43_serializer.md R233, R234) decode to the instructions they stand for. -/
def Obligations.KnownWordsDecode : Prop :=
  decode false false (.plain [0xF2, 0xFF, 0xFF, 0xFF, 0xFF, 0xBE, 0xAD, 0xDE, 0xAA] 0 72)
    = .ok (.branchFullPlain (.read 0 72) 31 0x7FFFFFFF 31 0xAADEADBE 32)
  ∧ decode false false (.plain [0xFA, 0xEE, 0xDB, 0xEA, 0x0D] 0 36) = .ok (.addrOnlyPlain (.read 0 36) 0xDEADBEEF 32)
  ∧ decode false false (.plain [0xCE, 0xF8, 0xEE, 0xDB, 0xEA, 0x0D] 0 44) = .ok (.syncStartPlain (.read 0 44) 3 true 0xDEADBEEF)
  ∧ decode false false (.plain [0x36, 0x08, 0x00, 0x40] 0 31)
    = .ok (.branchDiffPlain (.read 0 31) 3 0x4 9 0xFFFFF000 13)
  ∧ decode false false (.plain [0x02, 0x02] 0 10) = .ok (.branchFullNoaddrPlain (.read 0 10) 0x7FFFFFFF 1)
  ∧ decode false false (.pulp [0xE5, 0x8D, 0xEF, 0xBE, 0xAD, 0xDE, 0xFA])
    = .ok (.syncExceptionPulp (.read 5) 3 true 0xDEADBEEF 0x1A true 0)
  ∧ decode false false (.pulp [0x33, 0x9E, 0x15, 0x8D, 0x04]) = .ok (.softwarePulp (.read 3) 0x12345678)
  ∧ decode false false (.pulp [0xD7, 0x7B, 0xF3, 0x6A, 0xE2, 0x59, 0xD1, 0x48, 0x00])
    = .ok (.timerPulp (.read 7) 0x0123456789ABCDEF)
end

