-- ==== Sys2Proof/Laws/Bits.lean ====
section
/-! SUPPORT. Laws of bit strings and bytes: lengths, values, packing and reading back. -/

namespace Sys2Proof

@[simp] theorem bitsOf_length (w v : Nat) : (bitsOf w v).length = w := by
  induction w generalizing v with
  | zero => rfl
  | succ w ih => simp [bitsOf, ih]

/-- A field read back from its own bits is the value cut to the field. -/
theorem value_bitsOf (w v : Nat) : value (bitsOf w v) = v % 2 ^ w := by
  induction w generalizing v with
  | zero => simp [bitsOf, value, Nat.mod_one]
  | succ w ih =>
    have h := Nat.mod_mul (x := v) (a := 2) (b := 2 ^ w)
    have e : (v % 2 == 1).toNat = v % 2 := by
      rcases Nat.mod_two_eq_zero_or_one v with h | h <;> simp [h]
    rw [bitsOf, value, ih, e, Nat.pow_succ, Nat.mul_comm (2 ^ w) 2, h]

theorem value_lt (s : Bits) : value s < 2 ^ s.length := by
  induction s with
  | nil => simp [value]
  | cons b t ih =>
    have : b.toNat ≤ 1 := Bool.toNat_le b
    simp only [value, List.length_cons, Nat.pow_succ]
    omega

/-- The bits of the value of a bit string are the bit string. -/
theorem bitsOf_value (s : Bits) : bitsOf s.length (value s) = s := by
  induction s with
  | nil => rfl
  | cons b t ih =>
    have h1 : (b.toNat + 2 * value t) / 2 = value t := by have := Bool.toNat_le b; omega
    have h2 : ((b.toNat + 2 * value t) % 2 == 1) = b := by cases b <;> simp
    rw [List.length_cons, bitsOf, value, h1, h2, ih]

theorem bitsOf_mod (w v : Nat) : bitsOf w (v % 2 ^ w) = bitsOf w v := by
  have h := bitsOf_value (bitsOf w v)
  rwa [bitsOf_length, value_bitsOf] at h

/-- Writing a shorter field is writing the first bits of a longer one. -/
theorem bitsOf_take (w k v : Nat) (h : k ≤ w) : (bitsOf w v).take k = bitsOf k v := by
  induction k generalizing w v with
  | zero => simp [bitsOf]
  | succ k ih =>
    cases w with
    | zero => omega
    | succ w => simp [bitsOf, ih w (v / 2) (by omega)]

@[simp] theorem packBytes_length (n : Nat) (s : Bits) : (packBytes n s).length = n := by
  induction n generalizing s with
  | zero => rfl
  | succ n ih => simp [packBytes, ih]

@[simp] theorem toBytes_length (s : Bits) : (toBytes s).length = bytesFor s.length := by
  simp [toBytes]

@[simp] theorem ofBytes_length (b : List Byte) : (ofBytes b).length = 8 * b.length := by
  induction b with
  | nil => rfl
  | cons x t ih => simp [ofBytes, ih]; omega

theorem ofBytes_append (a b : List Byte) : ofBytes (a ++ b) = ofBytes a ++ ofBytes b := by
  induction a with
  | nil => rfl
  | cons x t ih => simp [ofBytes, ih]

/-- A bit string that has whole bytes is packed without loss. -/
theorem ofBytes_packBytes (n : Nat) (s : Bits) (h : s.length = 8 * n) : ofBytes (packBytes n s) = s := by
  induction n generalizing s with
  | zero => simp [packBytes, ofBytes]; exact List.eq_nil_of_length_eq_zero (by omega)
  | succ n ih =>
    have h8 : (s.take 8).length = 8 := by simp; omega
    have hv : value (s.take 8) < 256 := by simpa [h8] using value_lt (s.take 8)
    have e : bitsOf 8 (BitVec.ofNat 8 (value (s.take 8))).toNat = s.take 8 := by
      rw [BitVec.toNat_ofNat, Nat.mod_eq_of_lt (by simpa using hv)]
      simpa [h8] using bitsOf_value (s.take 8)
    rw [packBytes, ofBytes, e, ih (s.drop 8) (by simp; omega), List.take_append_drop]

theorem value_append_replicate_false (s : Bits) (k : Nat) : value (s ++ List.replicate k false) = value s := by
  induction s with
  | nil => induction k with
    | zero => rfl
    | succ k ih => simp_all [List.replicate_succ, value]
  | cons b t ih => simp [value, ih]

/-- Packing pads a bit string with 0 bits (20_memory.md R72, 43_serializer.md R242). -/
theorem packBytes_pad (n k : Nat) (s : Bits) : packBytes n (s ++ List.replicate k false) = packBytes n s := by
  cases n with
  | zero => rfl
  | succ n =>
    have e : value ((s ++ List.replicate k false).take 8) = value (s.take 8) := by
      rw [List.take_append, List.take_replicate, value_append_replicate_false]
    have d : (s ++ List.replicate k false).drop 8 = s.drop 8 ++ List.replicate (k - (8 - s.length)) false := by
      rw [List.drop_append, List.drop_replicate]
    rw [packBytes, packBytes, e, d, packBytes_pad n _ (s.drop 8)]

/-- The bits of a packed bit string: the string, padded with 0 bits to whole bytes. -/
theorem ofBytes_toBytes (s : Bits) :
    ofBytes (toBytes s) = s ++ List.replicate (8 * bytesFor s.length - s.length) false := by
  have hb : s.length ≤ 8 * bytesFor s.length := by unfold bytesFor; omega
  rw [toBytes, ← packBytes_pad _ (8 * bytesFor s.length - s.length)]
  exact ofBytes_packBytes _ _ (by simp; omega)

theorem take_ofBytes_toBytes (s : Bits) : (ofBytes (toBytes s)).take s.length = s := by
  rw [ofBytes_toBytes, List.take_left]

theorem toBytes_ofBytes (b : List Byte) : toBytes (ofBytes b) = b := by
  have hl : bytesFor (8 * b.length) = b.length := by unfold bytesFor; omega
  rw [toBytes, ofBytes_length, hl]
  induction b with
  | nil => rfl
  | cons x t ih =>
    have h8 : (bitsOf 8 x.toNat).length = 8 := bitsOf_length _ _
    have hx : BitVec.ofNat 8 (value (bitsOf 8 x.toNat)) = x := by
      rw [value_bitsOf]; apply BitVec.eq_of_toNat_eq; simpa using x.isLt
    have hl' : bytesFor (8 * t.length) = t.length := by unfold bytesFor; omega
    simp only [List.length_cons, packBytes, ofBytes]
    rw [List.take_left' h8, List.drop_left' h8, hx, ih hl']

/-- Fields read within the string: their bits' value (44_deserializer.md R270). -/
theorem readBits_eq_value (s : Bits) (p w : Nat) (h : p + w ≤ s.length) :
    readBits s p w = value ((s.drop p).take w) := by
  induction w generalizing p with
  | zero => simp [readBits, value]
  | succ w ih =>
    have hp : p < s.length := by omega
    rw [List.drop_eq_getElem_cons hp, List.take_succ_cons, value, readBits, ih (p + 1) (by omega)]
    simp [extBit, List.getD_eq_getElem?_getD, List.getElem?_eq_getElem hp]

/-- A field is read back from its place: the value written, cut to the field. -/
theorem readBits_field (a c : Bits) (w v : Nat) : readBits (a ++ (bitsOf w v ++ c)) a.length w = v % 2 ^ w := by
  rw [readBits_eq_value _ _ _ (by simp), List.drop_left, List.take_left' (bitsOf_length w v), value_bitsOf]

theorem readBits_lt (s : Bits) (p w : Nat) : readBits s p w < 2 ^ w := by
  induction w generalizing p with
  | zero => simp [readBits]
  | succ w ih =>
    have := ih (p + 1)
    have : (extBit s p).toNat ≤ 1 := Bool.toNat_le _
    simp only [readBits, Nat.pow_succ]
    omega

/-- Reads past the end repeat the last bit (44_deserializer.md R270). -/
theorem extBit_past (s : Bits) (i : Nat) (h : s.length ≤ i) : extBit s i = s.getLastD false := by
  simp [extBit, List.getD_eq_getElem?_getD, List.getElem?_eq_none h]

theorem sext_full (N v : Nat) : sext N N v = v := by simp [sext]

/-- The map width of a count in range has room for it (40_accumulator.md R134). -/
theorem bml_ge (c : Nat) (h : c ≤ 31) : c ≤ bml c := by
  unfold bml; repeat' split
  all_goals omega

theorem bml_le (c : Nat) : bml c ≤ 31 := by
  unfold bml; repeat' split
  all_goals omega

theorem bml_pos (c : Nat) : 1 ≤ bml c := by
  unfold bml; repeat' split
  all_goals omega

/-- A frame's length field counts its bytes less 2 (30_encoding.md R92). -/
theorem frameBytes_eq (b : Nat) : frameBytes b = frameLenOf b + 2 := by
  unfold frameLenOf frameBytes; omega

theorem frameBytes_room (b : Nat) : pulpPktLen + b ≤ 8 * frameBytes b := by
  unfold frameBytes bytesFor; omega

@[simp] theorem xlen_false : xlen false = 32 := rfl
@[simp] theorem xlen_true : xlen true = 64 := rfl

end Sys2Proof
end

