-- ==== Sys2Proof/Laws/State.lean ====
section
/-! SUPPORT. What each named update of the state leaves in each field. One lemma per field per update. -/

namespace Sys2Proof.Machine

/-! ### raise -/

@[simp] theorem State.raise_params (s : State) (e : ErrCode) (t : Stats) : (s.raise e t).params = s.params := rfl
@[simp] theorem State.raise_cfg0 (s : State) (e : ErrCode) (t : Stats) : (s.raise e t).cfg0 = s.cfg0 := rfl
@[simp] theorem State.raise_cfg1 (s : State) (e : ErrCode) (t : Stats) : (s.raise e t).cfg1 = s.cfg1 := rfl
@[simp] theorem State.raise_lastSlot (s : State) (e : ErrCode) (t : Stats) : (s.raise e t).lastSlot = s.lastSlot := rfl
@[simp] theorem State.raise_thisSlot (s : State) (e : ErrCode) (t : Stats) : (s.raise e t).thisSlot = s.thisSlot := rfl
@[simp] theorem State.raise_nextSlot (s : State) (e : ErrCode) (t : Stats) : (s.raise e t).nextSlot = s.nextSlot := rfl
@[simp] theorem State.raise_map (s : State) (e : ErrCode) (t : Stats) : (s.raise e t).map = s.map := rfl
@[simp] theorem State.raise_lastIaddr (s : State) (e : ErrCode) (t : Stats) : (s.raise e t).lastIaddr = s.lastIaddr := rfl
@[simp] theorem State.raise_resyncCnt (s : State) (e : ErrCode) (t : Stats) : (s.raise e t).resyncCnt = s.resyncCnt := rfl
@[simp] theorem State.raise_resyncPend (s : State) (e : ErrCode) (t : Stats) : (s.raise e t).resyncPend = s.resyncPend := rfl
@[simp] theorem State.raise_wrAlign (s : State) (e : ErrCode) (t : Stats) : (s.raise e t).wrAlign = s.wrAlign := rfl
@[simp] theorem State.raise_wrCarry (s : State) (e : ErrCode) (t : Stats) : (s.raise e t).wrCarry = s.wrCarry := rfl
@[simp] theorem State.raise_status (s : State) (e : ErrCode) (t : Stats) : (s.raise e t).status = e := rfl
@[simp] theorem State.raise_stats (s : State) (e : ErrCode) (t : Stats) : (s.raise e t).stats = t := rfl
@[simp] theorem State.raise_packetOut (s : State) (e : ErrCode) (t : Stats) : (s.raise e t).packetOut = s.packetOut := rfl
@[simp] theorem State.raise_byteOut (s : State) (e : ErrCode) (t : Stats) : (s.raise e t).byteOut = s.byteOut := rfl
@[simp] theorem State.raise_ports (s : State) (e : ErrCode) (t : Stats) : (s.raise e t).ports = ⟨e, none, none, none⟩ := rfl
@[simp] theorem State.raise_opIn (s : State) (e : ErrCode) (t : Stats) : (s.raise e t).opIn = s.opIn := rfl
@[simp] theorem State.raise_xlen (s : State) (e : ErrCode) (t : Stats) : (s.raise e t).xlen = s.xlen := rfl

/-! ### fail -/

@[simp] theorem State.fail_params (s : State) (e : ErrCode) : (s.fail e).params = s.params := rfl
@[simp] theorem State.fail_cfg0 (s : State) (e : ErrCode) : (s.fail e).cfg0 = s.cfg0 := rfl
@[simp] theorem State.fail_cfg1 (s : State) (e : ErrCode) : (s.fail e).cfg1 = s.cfg1 := rfl
@[simp] theorem State.fail_lastSlot (s : State) (e : ErrCode) : (s.fail e).lastSlot = s.lastSlot := rfl
@[simp] theorem State.fail_thisSlot (s : State) (e : ErrCode) : (s.fail e).thisSlot = s.thisSlot := rfl
@[simp] theorem State.fail_nextSlot (s : State) (e : ErrCode) : (s.fail e).nextSlot = s.nextSlot := rfl
@[simp] theorem State.fail_map (s : State) (e : ErrCode) : (s.fail e).map = s.map := rfl
@[simp] theorem State.fail_lastIaddr (s : State) (e : ErrCode) : (s.fail e).lastIaddr = s.lastIaddr := rfl
@[simp] theorem State.fail_resyncCnt (s : State) (e : ErrCode) : (s.fail e).resyncCnt = s.resyncCnt := rfl
@[simp] theorem State.fail_resyncPend (s : State) (e : ErrCode) : (s.fail e).resyncPend = s.resyncPend := rfl
@[simp] theorem State.fail_wrAlign (s : State) (e : ErrCode) : (s.fail e).wrAlign = s.wrAlign := rfl
@[simp] theorem State.fail_wrCarry (s : State) (e : ErrCode) : (s.fail e).wrCarry = s.wrCarry := rfl
@[simp] theorem State.fail_status (s : State) (e : ErrCode) : (s.fail e).status = e := rfl
@[simp] theorem State.fail_stats (s : State) (e : ErrCode) : (s.fail e).stats = s.stats := rfl
@[simp] theorem State.fail_packetOut (s : State) (e : ErrCode) : (s.fail e).packetOut = s.packetOut := rfl
@[simp] theorem State.fail_byteOut (s : State) (e : ErrCode) : (s.fail e).byteOut = s.byteOut := rfl
@[simp] theorem State.fail_ports (s : State) (e : ErrCode) : (s.fail e).ports = ⟨e, none, none, none⟩ := rfl
@[simp] theorem State.fail_opIn (s : State) (e : ErrCode) : (s.fail e).opIn = s.opIn := rfl
@[simp] theorem State.fail_xlen (s : State) (e : ErrCode) : (s.fail e).xlen = s.xlen := rfl

/-! ### clearStatus -/

@[simp] theorem State.clearStatus_params (s : State) : (s.clearStatus).params = s.params := rfl
@[simp] theorem State.clearStatus_cfg0 (s : State) : (s.clearStatus).cfg0 = s.cfg0 := rfl
@[simp] theorem State.clearStatus_cfg1 (s : State) : (s.clearStatus).cfg1 = s.cfg1 := rfl
@[simp] theorem State.clearStatus_lastSlot (s : State) : (s.clearStatus).lastSlot = s.lastSlot := rfl
@[simp] theorem State.clearStatus_thisSlot (s : State) : (s.clearStatus).thisSlot = s.thisSlot := rfl
@[simp] theorem State.clearStatus_nextSlot (s : State) : (s.clearStatus).nextSlot = s.nextSlot := rfl
@[simp] theorem State.clearStatus_map (s : State) : (s.clearStatus).map = s.map := rfl
@[simp] theorem State.clearStatus_lastIaddr (s : State) : (s.clearStatus).lastIaddr = s.lastIaddr := rfl
@[simp] theorem State.clearStatus_resyncCnt (s : State) : (s.clearStatus).resyncCnt = s.resyncCnt := rfl
@[simp] theorem State.clearStatus_resyncPend (s : State) : (s.clearStatus).resyncPend = s.resyncPend := rfl
@[simp] theorem State.clearStatus_wrAlign (s : State) : (s.clearStatus).wrAlign = s.wrAlign := rfl
@[simp] theorem State.clearStatus_wrCarry (s : State) : (s.clearStatus).wrCarry = s.wrCarry := rfl
@[simp] theorem State.clearStatus_status (s : State) : (s.clearStatus).status = .noError := rfl
@[simp] theorem State.clearStatus_stats (s : State) : (s.clearStatus).stats = s.stats := rfl
@[simp] theorem State.clearStatus_packetOut (s : State) : (s.clearStatus).packetOut = s.packetOut := rfl
@[simp] theorem State.clearStatus_byteOut (s : State) : (s.clearStatus).byteOut = s.byteOut := rfl
@[simp] theorem State.clearStatus_ports (s : State) : (s.clearStatus).ports = s.ports := rfl
@[simp] theorem State.clearStatus_opIn (s : State) : (s.clearStatus).opIn = s.opIn := rfl
@[simp] theorem State.clearStatus_xlen (s : State) : (s.clearStatus).xlen = s.xlen := rfl

/-! ### done -/

@[simp] theorem State.done_params (s : State) : (s.done).params = s.params := rfl
@[simp] theorem State.done_cfg0 (s : State) : (s.done).cfg0 = s.cfg0 := rfl
@[simp] theorem State.done_cfg1 (s : State) : (s.done).cfg1 = s.cfg1 := rfl
@[simp] theorem State.done_lastSlot (s : State) : (s.done).lastSlot = s.lastSlot := rfl
@[simp] theorem State.done_thisSlot (s : State) : (s.done).thisSlot = s.thisSlot := rfl
@[simp] theorem State.done_nextSlot (s : State) : (s.done).nextSlot = s.nextSlot := rfl
@[simp] theorem State.done_map (s : State) : (s.done).map = s.map := rfl
@[simp] theorem State.done_lastIaddr (s : State) : (s.done).lastIaddr = s.lastIaddr := rfl
@[simp] theorem State.done_resyncCnt (s : State) : (s.done).resyncCnt = s.resyncCnt := rfl
@[simp] theorem State.done_resyncPend (s : State) : (s.done).resyncPend = s.resyncPend := rfl
@[simp] theorem State.done_wrAlign (s : State) : (s.done).wrAlign = s.wrAlign := rfl
@[simp] theorem State.done_wrCarry (s : State) : (s.done).wrCarry = s.wrCarry := rfl
@[simp] theorem State.done_status (s : State) : (s.done).status = s.status := rfl
@[simp] theorem State.done_stats (s : State) : (s.done).stats = s.stats := rfl
@[simp] theorem State.done_packetOut (s : State) : (s.done).packetOut = s.packetOut := rfl
@[simp] theorem State.done_byteOut (s : State) : (s.done).byteOut = s.byteOut := rfl
@[simp] theorem State.done_ports (s : State) : (s.done).ports = Ports.ok := rfl
@[simp] theorem State.done_opIn (s : State) : (s.done).opIn = s.opIn := rfl
@[simp] theorem State.done_xlen (s : State) : (s.done).xlen = s.xlen := rfl

/-! ### doneSer -/

@[simp] theorem State.doneSer_params (s : State) (o : SerOut) : (s.doneSer o).params = s.params := rfl
@[simp] theorem State.doneSer_cfg0 (s : State) (o : SerOut) : (s.doneSer o).cfg0 = s.cfg0 := rfl
@[simp] theorem State.doneSer_cfg1 (s : State) (o : SerOut) : (s.doneSer o).cfg1 = s.cfg1 := rfl
@[simp] theorem State.doneSer_lastSlot (s : State) (o : SerOut) : (s.doneSer o).lastSlot = s.lastSlot := rfl
@[simp] theorem State.doneSer_thisSlot (s : State) (o : SerOut) : (s.doneSer o).thisSlot = s.thisSlot := rfl
@[simp] theorem State.doneSer_nextSlot (s : State) (o : SerOut) : (s.doneSer o).nextSlot = s.nextSlot := rfl
@[simp] theorem State.doneSer_map (s : State) (o : SerOut) : (s.doneSer o).map = s.map := rfl
@[simp] theorem State.doneSer_lastIaddr (s : State) (o : SerOut) : (s.doneSer o).lastIaddr = s.lastIaddr := rfl
@[simp] theorem State.doneSer_resyncCnt (s : State) (o : SerOut) : (s.doneSer o).resyncCnt = s.resyncCnt := rfl
@[simp] theorem State.doneSer_resyncPend (s : State) (o : SerOut) : (s.doneSer o).resyncPend = s.resyncPend := rfl
@[simp] theorem State.doneSer_wrAlign (s : State) (o : SerOut) : (s.doneSer o).wrAlign = s.wrAlign := rfl
@[simp] theorem State.doneSer_wrCarry (s : State) (o : SerOut) : (s.doneSer o).wrCarry = s.wrCarry := rfl
@[simp] theorem State.doneSer_status (s : State) (o : SerOut) : (s.doneSer o).status = s.status := rfl
@[simp] theorem State.doneSer_stats (s : State) (o : SerOut) : (s.doneSer o).stats = s.stats := rfl
@[simp] theorem State.doneSer_packetOut (s : State) (o : SerOut) : (s.doneSer o).packetOut = s.packetOut := rfl
@[simp] theorem State.doneSer_byteOut (s : State) (o : SerOut) : (s.doneSer o).byteOut = s.byteOut := rfl
@[simp] theorem State.doneSer_ports (s : State) (o : SerOut) : (s.doneSer o).ports = ⟨.noError, some o, none, none⟩ := rfl
@[simp] theorem State.doneSer_opIn (s : State) (o : SerOut) : (s.doneSer o).opIn = s.opIn := rfl
@[simp] theorem State.doneSer_xlen (s : State) (o : SerOut) : (s.doneSer o).xlen = s.xlen := rfl

/-! ### doneDes -/

@[simp] theorem State.doneDes_params (s : State) (o : DesOut) : (s.doneDes o).params = s.params := rfl
@[simp] theorem State.doneDes_cfg0 (s : State) (o : DesOut) : (s.doneDes o).cfg0 = s.cfg0 := rfl
@[simp] theorem State.doneDes_cfg1 (s : State) (o : DesOut) : (s.doneDes o).cfg1 = s.cfg1 := rfl
@[simp] theorem State.doneDes_lastSlot (s : State) (o : DesOut) : (s.doneDes o).lastSlot = s.lastSlot := rfl
@[simp] theorem State.doneDes_thisSlot (s : State) (o : DesOut) : (s.doneDes o).thisSlot = s.thisSlot := rfl
@[simp] theorem State.doneDes_nextSlot (s : State) (o : DesOut) : (s.doneDes o).nextSlot = s.nextSlot := rfl
@[simp] theorem State.doneDes_map (s : State) (o : DesOut) : (s.doneDes o).map = s.map := rfl
@[simp] theorem State.doneDes_lastIaddr (s : State) (o : DesOut) : (s.doneDes o).lastIaddr = s.lastIaddr := rfl
@[simp] theorem State.doneDes_resyncCnt (s : State) (o : DesOut) : (s.doneDes o).resyncCnt = s.resyncCnt := rfl
@[simp] theorem State.doneDes_resyncPend (s : State) (o : DesOut) : (s.doneDes o).resyncPend = s.resyncPend := rfl
@[simp] theorem State.doneDes_wrAlign (s : State) (o : DesOut) : (s.doneDes o).wrAlign = s.wrAlign := rfl
@[simp] theorem State.doneDes_wrCarry (s : State) (o : DesOut) : (s.doneDes o).wrCarry = s.wrCarry := rfl
@[simp] theorem State.doneDes_status (s : State) (o : DesOut) : (s.doneDes o).status = s.status := rfl
@[simp] theorem State.doneDes_stats (s : State) (o : DesOut) : (s.doneDes o).stats = s.stats := rfl
@[simp] theorem State.doneDes_packetOut (s : State) (o : DesOut) : (s.doneDes o).packetOut = s.packetOut := rfl
@[simp] theorem State.doneDes_byteOut (s : State) (o : DesOut) : (s.doneDes o).byteOut = s.byteOut := rfl
@[simp] theorem State.doneDes_ports (s : State) (o : DesOut) : (s.doneDes o).ports = ⟨.noError, none, some o, none⟩ := rfl
@[simp] theorem State.doneDes_opIn (s : State) (o : DesOut) : (s.doneDes o).opIn = s.opIn := rfl
@[simp] theorem State.doneDes_xlen (s : State) (o : DesOut) : (s.doneDes o).xlen = s.xlen := rfl

/-! ### doneRead -/

@[simp] theorem State.doneRead_params (s : State) (o : ReadOut) : (s.doneRead o).params = s.params := rfl
@[simp] theorem State.doneRead_cfg0 (s : State) (o : ReadOut) : (s.doneRead o).cfg0 = s.cfg0 := rfl
@[simp] theorem State.doneRead_cfg1 (s : State) (o : ReadOut) : (s.doneRead o).cfg1 = s.cfg1 := rfl
@[simp] theorem State.doneRead_lastSlot (s : State) (o : ReadOut) : (s.doneRead o).lastSlot = s.lastSlot := rfl
@[simp] theorem State.doneRead_thisSlot (s : State) (o : ReadOut) : (s.doneRead o).thisSlot = s.thisSlot := rfl
@[simp] theorem State.doneRead_nextSlot (s : State) (o : ReadOut) : (s.doneRead o).nextSlot = s.nextSlot := rfl
@[simp] theorem State.doneRead_map (s : State) (o : ReadOut) : (s.doneRead o).map = s.map := rfl
@[simp] theorem State.doneRead_lastIaddr (s : State) (o : ReadOut) : (s.doneRead o).lastIaddr = s.lastIaddr := rfl
@[simp] theorem State.doneRead_resyncCnt (s : State) (o : ReadOut) : (s.doneRead o).resyncCnt = s.resyncCnt := rfl
@[simp] theorem State.doneRead_resyncPend (s : State) (o : ReadOut) : (s.doneRead o).resyncPend = s.resyncPend := rfl
@[simp] theorem State.doneRead_wrAlign (s : State) (o : ReadOut) : (s.doneRead o).wrAlign = s.wrAlign := rfl
@[simp] theorem State.doneRead_wrCarry (s : State) (o : ReadOut) : (s.doneRead o).wrCarry = s.wrCarry := rfl
@[simp] theorem State.doneRead_status (s : State) (o : ReadOut) : (s.doneRead o).status = s.status := rfl
@[simp] theorem State.doneRead_stats (s : State) (o : ReadOut) : (s.doneRead o).stats = s.stats := rfl
@[simp] theorem State.doneRead_packetOut (s : State) (o : ReadOut) : (s.doneRead o).packetOut = s.packetOut := rfl
@[simp] theorem State.doneRead_byteOut (s : State) (o : ReadOut) : (s.doneRead o).byteOut = s.byteOut := rfl
@[simp] theorem State.doneRead_ports (s : State) (o : ReadOut) : (s.doneRead o).ports = ⟨.noError, none, none, some o⟩ := rfl
@[simp] theorem State.doneRead_opIn (s : State) (o : ReadOut) : (s.doneRead o).opIn = s.opIn := rfl
@[simp] theorem State.doneRead_xlen (s : State) (o : ReadOut) : (s.doneRead o).xlen = s.xlen := rfl

/-! ### configure -/

@[simp] theorem State.configure_params (s : State) (c0 c1 : BitVec 32) : (s.configure c0 c1).params = s.params := rfl
@[simp] theorem State.configure_cfg0 (s : State) (c0 c1 : BitVec 32) : (s.configure c0 c1).cfg0 = c0 := rfl
@[simp] theorem State.configure_cfg1 (s : State) (c0 c1 : BitVec 32) : (s.configure c0 c1).cfg1 = c1 := rfl
@[simp] theorem State.configure_lastSlot (s : State) (c0 c1 : BitVec 32) : (s.configure c0 c1).lastSlot = Slot.empty := rfl
@[simp] theorem State.configure_thisSlot (s : State) (c0 c1 : BitVec 32) : (s.configure c0 c1).thisSlot = Slot.empty := rfl
@[simp] theorem State.configure_nextSlot (s : State) (c0 c1 : BitVec 32) : (s.configure c0 c1).nextSlot = Slot.empty := rfl
@[simp] theorem State.configure_map (s : State) (c0 c1 : BitVec 32) : (s.configure c0 c1).map = BranchMap.empty := rfl
@[simp] theorem State.configure_lastIaddr (s : State) (c0 c1 : BitVec 32) : (s.configure c0 c1).lastIaddr = 0 := rfl
@[simp] theorem State.configure_resyncCnt (s : State) (c0 c1 : BitVec 32) : (s.configure c0 c1).resyncCnt = 0 := rfl
@[simp] theorem State.configure_resyncPend (s : State) (c0 c1 : BitVec 32) : (s.configure c0 c1).resyncPend = false := rfl
@[simp] theorem State.configure_wrAlign (s : State) (c0 c1 : BitVec 32) : (s.configure c0 c1).wrAlign = 0 := rfl
@[simp] theorem State.configure_wrCarry (s : State) (c0 c1 : BitVec 32) : (s.configure c0 c1).wrCarry = 0 := rfl
@[simp] theorem State.configure_status (s : State) (c0 c1 : BitVec 32) : (s.configure c0 c1).status = .noError := rfl
@[simp] theorem State.configure_stats (s : State) (c0 c1 : BitVec 32) : (s.configure c0 c1).stats = Stats.zero := rfl
@[simp] theorem State.configure_packetOut (s : State) (c0 c1 : BitVec 32) : (s.configure c0 c1).packetOut = s.packetOut := rfl
@[simp] theorem State.configure_byteOut (s : State) (c0 c1 : BitVec 32) : (s.configure c0 c1).byteOut = s.byteOut := rfl
@[simp] theorem State.configure_ports (s : State) (c0 c1 : BitVec 32) : (s.configure c0 c1).ports = s.ports := rfl
@[simp] theorem State.configure_opIn (s : State) (c0 c1 : BitVec 32) : (s.configure c0 c1).opIn = s.opIn := rfl
@[simp] theorem State.configure_xlen (s : State) (c0 c1 : BitVec 32) : (s.configure c0 c1).xlen = Sys2Proof.xlen (Cfg0.arch64 c0) := rfl

/-! ### shiftIn -/

@[simp] theorem State.shiftIn_params (s : State) (n : Slot) : (s.shiftIn n).params = s.params := rfl
@[simp] theorem State.shiftIn_cfg0 (s : State) (n : Slot) : (s.shiftIn n).cfg0 = s.cfg0 := rfl
@[simp] theorem State.shiftIn_cfg1 (s : State) (n : Slot) : (s.shiftIn n).cfg1 = s.cfg1 := rfl
@[simp] theorem State.shiftIn_lastSlot (s : State) (n : Slot) : (s.shiftIn n).lastSlot = s.thisSlot := rfl
@[simp] theorem State.shiftIn_thisSlot (s : State) (n : Slot) : (s.shiftIn n).thisSlot = s.nextSlot := rfl
@[simp] theorem State.shiftIn_nextSlot (s : State) (n : Slot) : (s.shiftIn n).nextSlot = n := rfl
@[simp] theorem State.shiftIn_map (s : State) (n : Slot) : (s.shiftIn n).map = s.map := rfl
@[simp] theorem State.shiftIn_lastIaddr (s : State) (n : Slot) : (s.shiftIn n).lastIaddr = s.lastIaddr := rfl
@[simp] theorem State.shiftIn_resyncCnt (s : State) (n : Slot) : (s.shiftIn n).resyncCnt = s.resyncCnt := rfl
@[simp] theorem State.shiftIn_resyncPend (s : State) (n : Slot) : (s.shiftIn n).resyncPend = s.resyncPend := rfl
@[simp] theorem State.shiftIn_wrAlign (s : State) (n : Slot) : (s.shiftIn n).wrAlign = s.wrAlign := rfl
@[simp] theorem State.shiftIn_wrCarry (s : State) (n : Slot) : (s.shiftIn n).wrCarry = s.wrCarry := rfl
@[simp] theorem State.shiftIn_status (s : State) (n : Slot) : (s.shiftIn n).status = s.status := rfl
@[simp] theorem State.shiftIn_stats (s : State) (n : Slot) : (s.shiftIn n).stats = s.stats := rfl
@[simp] theorem State.shiftIn_packetOut (s : State) (n : Slot) : (s.shiftIn n).packetOut = s.packetOut := rfl
@[simp] theorem State.shiftIn_byteOut (s : State) (n : Slot) : (s.shiftIn n).byteOut = s.byteOut := rfl
@[simp] theorem State.shiftIn_ports (s : State) (n : Slot) : (s.shiftIn n).ports = s.ports := rfl
@[simp] theorem State.shiftIn_opIn (s : State) (n : Slot) : (s.shiftIn n).opIn = s.opIn := rfl
@[simp] theorem State.shiftIn_xlen (s : State) (n : Slot) : (s.shiftIn n).xlen = s.xlen := rfl

/-! ### shiftRecord -/

@[simp] theorem State.shiftRecord_params (s : State) (r : Record) : (s.shiftRecord r).params = s.params := rfl
@[simp] theorem State.shiftRecord_cfg0 (s : State) (r : Record) : (s.shiftRecord r).cfg0 = s.cfg0 := rfl
@[simp] theorem State.shiftRecord_cfg1 (s : State) (r : Record) : (s.shiftRecord r).cfg1 = s.cfg1 := rfl
@[simp] theorem State.shiftRecord_lastSlot (s : State) (r : Record) : (s.shiftRecord r).lastSlot = s.thisSlot := rfl
@[simp] theorem State.shiftRecord_thisSlot (s : State) (r : Record) : (s.shiftRecord r).thisSlot = s.nextSlot := rfl
@[simp] theorem State.shiftRecord_nextSlot (s : State) (r : Record) : (s.shiftRecord r).nextSlot = slotOf s.xlen (s.classOf r) r s.nextSlot := rfl
@[simp] theorem State.shiftRecord_map (s : State) (r : Record) : (s.shiftRecord r).map = s.map := rfl
@[simp] theorem State.shiftRecord_lastIaddr (s : State) (r : Record) : (s.shiftRecord r).lastIaddr = s.lastIaddr := rfl
@[simp] theorem State.shiftRecord_resyncCnt (s : State) (r : Record) : (s.shiftRecord r).resyncCnt = s.resyncCnt := rfl
@[simp] theorem State.shiftRecord_resyncPend (s : State) (r : Record) : (s.shiftRecord r).resyncPend = s.resyncPend := rfl
@[simp] theorem State.shiftRecord_wrAlign (s : State) (r : Record) : (s.shiftRecord r).wrAlign = s.wrAlign := rfl
@[simp] theorem State.shiftRecord_wrCarry (s : State) (r : Record) : (s.shiftRecord r).wrCarry = s.wrCarry := rfl
@[simp] theorem State.shiftRecord_status (s : State) (r : Record) : (s.shiftRecord r).status = s.status := rfl
@[simp] theorem State.shiftRecord_stats (s : State) (r : Record) : (s.shiftRecord r).stats = s.stats.countInstr s.params.statw := rfl
@[simp] theorem State.shiftRecord_packetOut (s : State) (r : Record) : (s.shiftRecord r).packetOut = s.packetOut := rfl
@[simp] theorem State.shiftRecord_byteOut (s : State) (r : Record) : (s.shiftRecord r).byteOut = s.byteOut := rfl
@[simp] theorem State.shiftRecord_ports (s : State) (r : Record) : (s.shiftRecord r).ports = s.ports := rfl
@[simp] theorem State.shiftRecord_opIn (s : State) (r : Record) : (s.shiftRecord r).opIn = s.opIn := rfl
@[simp] theorem State.shiftRecord_xlen (s : State) (r : Record) : (s.shiftRecord r).xlen = s.xlen := rfl

/-! ### syncCommon -/

@[simp] theorem State.syncCommon_params (s : State) : (s.syncCommon).params = s.params := rfl
@[simp] theorem State.syncCommon_cfg0 (s : State) : (s.syncCommon).cfg0 = s.cfg0 := rfl
@[simp] theorem State.syncCommon_cfg1 (s : State) : (s.syncCommon).cfg1 = s.cfg1 := rfl
@[simp] theorem State.syncCommon_lastSlot (s : State) : (s.syncCommon).lastSlot = s.lastSlot := rfl
@[simp] theorem State.syncCommon_thisSlot (s : State) : (s.syncCommon).thisSlot = s.thisSlot := rfl
@[simp] theorem State.syncCommon_nextSlot (s : State) : (s.syncCommon).nextSlot = s.nextSlot := rfl
@[simp] theorem State.syncCommon_map (s : State) : (s.syncCommon).map = BranchMap.empty := rfl
@[simp] theorem State.syncCommon_lastIaddr (s : State) : (s.syncCommon).lastIaddr = s.thisSlot.iaddr := rfl
@[simp] theorem State.syncCommon_resyncCnt (s : State) : (s.syncCommon).resyncCnt = s.resyncCnt := rfl
@[simp] theorem State.syncCommon_resyncPend (s : State) : (s.syncCommon).resyncPend = s.resyncPend := rfl
@[simp] theorem State.syncCommon_wrAlign (s : State) : (s.syncCommon).wrAlign = s.wrAlign := rfl
@[simp] theorem State.syncCommon_wrCarry (s : State) : (s.syncCommon).wrCarry = s.wrCarry := rfl
@[simp] theorem State.syncCommon_status (s : State) : (s.syncCommon).status = s.status := rfl
@[simp] theorem State.syncCommon_stats (s : State) : (s.syncCommon).stats = s.stats := rfl
@[simp] theorem State.syncCommon_packetOut (s : State) : (s.syncCommon).packetOut = s.packetOut := rfl
@[simp] theorem State.syncCommon_byteOut (s : State) : (s.syncCommon).byteOut = s.byteOut := rfl
@[simp] theorem State.syncCommon_ports (s : State) : (s.syncCommon).ports = s.ports := rfl
@[simp] theorem State.syncCommon_opIn (s : State) : (s.syncCommon).opIn = s.opIn := rfl
@[simp] theorem State.syncCommon_xlen (s : State) : (s.syncCommon).xlen = s.xlen := rfl

/-! ### markEes -/

@[simp] theorem State.markEes_params (s : State) : (s.markEes).params = s.params := rfl
@[simp] theorem State.markEes_cfg0 (s : State) : (s.markEes).cfg0 = s.cfg0 := rfl
@[simp] theorem State.markEes_cfg1 (s : State) : (s.markEes).cfg1 = s.cfg1 := rfl
@[simp] theorem State.markEes_lastSlot (s : State) : (s.markEes).lastSlot = s.lastSlot := rfl
@[simp] theorem State.markEes_thisSlot (s : State) : (s.markEes).thisSlot = { s.thisSlot with ees := true } := rfl
@[simp] theorem State.markEes_nextSlot (s : State) : (s.markEes).nextSlot = s.nextSlot := rfl
@[simp] theorem State.markEes_map (s : State) : (s.markEes).map = s.map := rfl
@[simp] theorem State.markEes_lastIaddr (s : State) : (s.markEes).lastIaddr = s.lastIaddr := rfl
@[simp] theorem State.markEes_resyncCnt (s : State) : (s.markEes).resyncCnt = s.resyncCnt := rfl
@[simp] theorem State.markEes_resyncPend (s : State) : (s.markEes).resyncPend = s.resyncPend := rfl
@[simp] theorem State.markEes_wrAlign (s : State) : (s.markEes).wrAlign = s.wrAlign := rfl
@[simp] theorem State.markEes_wrCarry (s : State) : (s.markEes).wrCarry = s.wrCarry := rfl
@[simp] theorem State.markEes_status (s : State) : (s.markEes).status = s.status := rfl
@[simp] theorem State.markEes_stats (s : State) : (s.markEes).stats = s.stats := rfl
@[simp] theorem State.markEes_packetOut (s : State) : (s.markEes).packetOut = s.packetOut := rfl
@[simp] theorem State.markEes_byteOut (s : State) : (s.markEes).byteOut = s.byteOut := rfl
@[simp] theorem State.markEes_ports (s : State) : (s.markEes).ports = s.ports := rfl
@[simp] theorem State.markEes_opIn (s : State) : (s.markEes).opIn = s.opIn := rfl
@[simp] theorem State.markEes_xlen (s : State) : (s.markEes).xlen = s.xlen := rfl

/-! ### flushState -/

@[simp] theorem State.flushState_params (s : State) (d : Bool) : (s.flushState d).params = s.params := rfl
@[simp] theorem State.flushState_cfg0 (s : State) (d : Bool) : (s.flushState d).cfg0 = s.cfg0 := rfl
@[simp] theorem State.flushState_cfg1 (s : State) (d : Bool) : (s.flushState d).cfg1 = s.cfg1 := rfl
@[simp] theorem State.flushState_lastSlot (s : State) (d : Bool) : (s.flushState d).lastSlot = s.lastSlot := rfl
@[simp] theorem State.flushState_thisSlot (s : State) (d : Bool) : (s.flushState d).thisSlot = s.thisSlot := rfl
@[simp] theorem State.flushState_nextSlot (s : State) (d : Bool) : (s.flushState d).nextSlot = s.nextSlot := rfl
@[simp] theorem State.flushState_map (s : State) (d : Bool) : (s.flushState d).map = BranchMap.empty := rfl
@[simp] theorem State.flushState_lastIaddr (s : State) (d : Bool) : (s.flushState d).lastIaddr = if s.map.cnt.toNat = 31 ∧ d = false then s.lastIaddr else s.thisSlot.iaddr := rfl
@[simp] theorem State.flushState_resyncCnt (s : State) (d : Bool) : (s.flushState d).resyncCnt = s.resyncCnt := rfl
@[simp] theorem State.flushState_resyncPend (s : State) (d : Bool) : (s.flushState d).resyncPend = s.resyncPend := rfl
@[simp] theorem State.flushState_wrAlign (s : State) (d : Bool) : (s.flushState d).wrAlign = s.wrAlign := rfl
@[simp] theorem State.flushState_wrCarry (s : State) (d : Bool) : (s.flushState d).wrCarry = s.wrCarry := rfl
@[simp] theorem State.flushState_status (s : State) (d : Bool) : (s.flushState d).status = s.status := rfl
@[simp] theorem State.flushState_stats (s : State) (d : Bool) : (s.flushState d).stats = s.stats := rfl
@[simp] theorem State.flushState_packetOut (s : State) (d : Bool) : (s.flushState d).packetOut = s.packetOut := rfl
@[simp] theorem State.flushState_byteOut (s : State) (d : Bool) : (s.flushState d).byteOut = s.byteOut := rfl
@[simp] theorem State.flushState_ports (s : State) (d : Bool) : (s.flushState d).ports = s.ports := rfl
@[simp] theorem State.flushState_opIn (s : State) (d : Bool) : (s.flushState d).opIn = s.opIn := rfl
@[simp] theorem State.flushState_xlen (s : State) (d : Bool) : (s.flushState d).xlen = s.xlen := rfl

/-! ### accReset -/

@[simp] theorem State.accReset_params (s : State) : (s.accReset).params = s.params := rfl
@[simp] theorem State.accReset_cfg0 (s : State) : (s.accReset).cfg0 = s.cfg0 := rfl
@[simp] theorem State.accReset_cfg1 (s : State) : (s.accReset).cfg1 = s.cfg1 := rfl
@[simp] theorem State.accReset_lastSlot (s : State) : (s.accReset).lastSlot = s.lastSlot := rfl
@[simp] theorem State.accReset_thisSlot (s : State) : (s.accReset).thisSlot = s.thisSlot := rfl
@[simp] theorem State.accReset_nextSlot (s : State) : (s.accReset).nextSlot = s.nextSlot := rfl
@[simp] theorem State.accReset_map (s : State) : (s.accReset).map = BranchMap.empty := rfl
@[simp] theorem State.accReset_lastIaddr (s : State) : (s.accReset).lastIaddr = s.lastIaddr := rfl
@[simp] theorem State.accReset_resyncCnt (s : State) : (s.accReset).resyncCnt = s.resyncCnt := rfl
@[simp] theorem State.accReset_resyncPend (s : State) : (s.accReset).resyncPend = s.resyncPend := rfl
@[simp] theorem State.accReset_wrAlign (s : State) : (s.accReset).wrAlign = s.wrAlign := rfl
@[simp] theorem State.accReset_wrCarry (s : State) : (s.accReset).wrCarry = s.wrCarry := rfl
@[simp] theorem State.accReset_status (s : State) : (s.accReset).status = s.status := rfl
@[simp] theorem State.accReset_stats (s : State) : (s.accReset).stats = s.stats := rfl
@[simp] theorem State.accReset_packetOut (s : State) : (s.accReset).packetOut = s.packetOut := rfl
@[simp] theorem State.accReset_byteOut (s : State) : (s.accReset).byteOut = s.byteOut := rfl
@[simp] theorem State.accReset_ports (s : State) : (s.accReset).ports = s.ports := rfl
@[simp] theorem State.accReset_opIn (s : State) : (s.accReset).opIn = s.opIn := rfl
@[simp] theorem State.accReset_xlen (s : State) : (s.accReset).xlen = s.xlen := rfl

/-! ### recordBranch and flushWriter, which act under a condition -/

@[simp] theorem State.recordBranch_params (s : State) : s.recordBranch.params = s.params := by
  unfold State.recordBranch; split <;> rfl
@[simp] theorem State.recordBranch_cfg0 (s : State) : s.recordBranch.cfg0 = s.cfg0 := by
  unfold State.recordBranch; split <;> rfl
@[simp] theorem State.recordBranch_cfg1 (s : State) : s.recordBranch.cfg1 = s.cfg1 := by
  unfold State.recordBranch; split <;> rfl
@[simp] theorem State.recordBranch_lastSlot (s : State) : s.recordBranch.lastSlot = s.lastSlot := by
  unfold State.recordBranch; split <;> rfl
@[simp] theorem State.recordBranch_thisSlot (s : State) : s.recordBranch.thisSlot = s.thisSlot := by
  unfold State.recordBranch; split <;> rfl
@[simp] theorem State.recordBranch_nextSlot (s : State) : s.recordBranch.nextSlot = s.nextSlot := by
  unfold State.recordBranch; split <;> rfl
@[simp] theorem State.recordBranch_lastIaddr (s : State) : s.recordBranch.lastIaddr = s.lastIaddr := by
  unfold State.recordBranch; split <;> rfl
@[simp] theorem State.recordBranch_resyncCnt (s : State) : s.recordBranch.resyncCnt = s.resyncCnt := by
  unfold State.recordBranch; split <;> rfl
@[simp] theorem State.recordBranch_resyncPend (s : State) : s.recordBranch.resyncPend = s.resyncPend := by
  unfold State.recordBranch; split <;> rfl
@[simp] theorem State.recordBranch_wrAlign (s : State) : s.recordBranch.wrAlign = s.wrAlign := by
  unfold State.recordBranch; split <;> rfl
@[simp] theorem State.recordBranch_wrCarry (s : State) : s.recordBranch.wrCarry = s.wrCarry := by
  unfold State.recordBranch; split <;> rfl
@[simp] theorem State.recordBranch_status (s : State) : s.recordBranch.status = s.status := by
  unfold State.recordBranch; split <;> rfl
@[simp] theorem State.recordBranch_stats (s : State) : s.recordBranch.stats = s.stats := by
  unfold State.recordBranch; split <;> rfl
@[simp] theorem State.recordBranch_packetOut (s : State) : s.recordBranch.packetOut = s.packetOut := by
  unfold State.recordBranch; split <;> rfl
@[simp] theorem State.recordBranch_byteOut (s : State) : s.recordBranch.byteOut = s.byteOut := by
  unfold State.recordBranch; split <;> rfl
@[simp] theorem State.recordBranch_ports (s : State) : s.recordBranch.ports = s.ports := by
  unfold State.recordBranch; split <;> rfl
@[simp] theorem State.recordBranch_opIn (s : State) : s.recordBranch.opIn = s.opIn := by
  unfold State.recordBranch; split <;> rfl
@[simp] theorem State.recordBranch_xlen (s : State) : s.recordBranch.xlen = s.xlen := by
  simp [State.xlen]
theorem State.recordBranch_map (s : State) :
    s.recordBranch.map =
      if s.thisSlot.isBranch && s.nextSlot.q then s.map.record (notTaken s.xlen s.thisSlot s.nextSlot) else s.map := by
  unfold State.recordBranch; split <;> rfl
@[simp] theorem State.flushWriter_params (s : State) : s.flushWriter.params = s.params := by
  unfold State.flushWriter; split <;> rfl
@[simp] theorem State.flushWriter_cfg0 (s : State) : s.flushWriter.cfg0 = s.cfg0 := by
  unfold State.flushWriter; split <;> rfl
@[simp] theorem State.flushWriter_cfg1 (s : State) : s.flushWriter.cfg1 = s.cfg1 := by
  unfold State.flushWriter; split <;> rfl
@[simp] theorem State.flushWriter_lastSlot (s : State) : s.flushWriter.lastSlot = s.lastSlot := by
  unfold State.flushWriter; split <;> rfl
@[simp] theorem State.flushWriter_thisSlot (s : State) : s.flushWriter.thisSlot = s.thisSlot := by
  unfold State.flushWriter; split <;> rfl
@[simp] theorem State.flushWriter_nextSlot (s : State) : s.flushWriter.nextSlot = s.nextSlot := by
  unfold State.flushWriter; split <;> rfl
@[simp] theorem State.flushWriter_map (s : State) : s.flushWriter.map = s.map := by
  unfold State.flushWriter; split <;> rfl
@[simp] theorem State.flushWriter_lastIaddr (s : State) : s.flushWriter.lastIaddr = s.lastIaddr := by
  unfold State.flushWriter; split <;> rfl
@[simp] theorem State.flushWriter_resyncCnt (s : State) : s.flushWriter.resyncCnt = s.resyncCnt := by
  unfold State.flushWriter; split <;> rfl
@[simp] theorem State.flushWriter_resyncPend (s : State) : s.flushWriter.resyncPend = s.resyncPend := by
  unfold State.flushWriter; split <;> rfl
@[simp] theorem State.flushWriter_status (s : State) : s.flushWriter.status = s.status := by
  unfold State.flushWriter; split <;> rfl
@[simp] theorem State.flushWriter_stats (s : State) : s.flushWriter.stats = s.stats := by
  unfold State.flushWriter; split <;> rfl
@[simp] theorem State.flushWriter_packetOut (s : State) : s.flushWriter.packetOut = s.packetOut := by
  unfold State.flushWriter; split <;> rfl
@[simp] theorem State.flushWriter_ports (s : State) : s.flushWriter.ports = s.ports := by
  unfold State.flushWriter; split <;> rfl
@[simp] theorem State.flushWriter_opIn (s : State) : s.flushWriter.opIn = s.opIn := by
  unfold State.flushWriter; split <;> rfl
@[simp] theorem State.flushWriter_xlen (s : State) : s.flushWriter.xlen = s.xlen := by
  simp [State.xlen]
@[simp] theorem State.flushWriter_wrAlign (s : State) : s.flushWriter.wrAlign = 0 := by
  unfold State.flushWriter; split <;> simp_all
theorem State.flushWriter_byteOut (s : State) :
    s.flushWriter.byteOut = if s.wrAlign = 0 then s.byteOut else s.byteOut ++ [s.wrCarry.zeroExtend 8] := by
  unfold State.flushWriter; split <;> rfl
theorem State.flushWriter_wrCarry (s : State) : s.flushWriter.wrCarry = if s.wrAlign = 0 then s.wrCarry else 0 := by
  unfold State.flushWriter; split <;> rfl

end Sys2Proof.Machine
end

