-- ==== Sys2Proof/Laws/Ops.lean ====
section
/-! SUPPORT. For each shared operation, once, everything it can do. -/

namespace Sys2Proof.Machine

/-! ### The serializer -/

/-- F_SER_PLAIN gives the error of the first check that applies, or the bytes and the bit count. -/
theorem serPlain_cases (w : Nat) (p : Packet) (align : Nat) (carry : Byte) :
    (8 ≤ align ∧ serPlain w p align carry = .error .invalid)
    ∨ (align < 8 ∧ ∃ e, validate w p = some e ∧ serPlain w p align carry = .error e)
    ∨ (align < 8 ∧ validate w p = none
        ∧ serPlain w p align carry = .ok (toBytes (bitsOf align carry.toNat ++ packetBits w true p), p.bitLen w)) := by
  unfold serPlain
  split
  · left; exact ⟨‹_›, rfl⟩
  · right
    have ha : align < 8 := by omega
    cases h : validate w p with
    | some e => left; exact ⟨ha, e, rfl, rfl⟩
    | none => right; exact ⟨ha, rfl, rfl⟩

/-- F_SER_PULP gives the error of the checks, an overflow, or the frame's bytes. -/
theorem serPulp_cases (w : Nat) (tv : Bool) (p : Packet) :
    (∃ e, validate w p = some e ∧ serPulp w tv p = .error e)
    ∨ (validate w p = none ∧ 15 < frameLenOf (packetBits w tv p).length ∧ serPulp w tv p = .error .badPacket)
    ∨ (validate w p = none ∧ frameLenOf (packetBits w tv p).length ≤ 15
        ∧ serPulp w tv p = .ok (toBytes (frameOf (packetBits w tv p)))) := by
  unfold serPulp
  cases h : validate w p with
  | some e => left; exact ⟨e, rfl, rfl⟩
  | none =>
    right
    by_cases hl : 15 < frameLenOf (packetBits w tv p).length
    · left; exact ⟨rfl, hl, by simp [hl]⟩
    · right; exact ⟨rfl, by omega, by simp [hl]⟩

/-- The checks raise two codes only. -/
theorem validate_codes (w : Nat) (p : Packet) (e : ErrCode) (h : validate w p = some e) :
    e = .badPacket ∨ e = .unimplemented := by
  cases hk : p.kind <;> simp_all [validate, Packet.reservedError] <;> grind

/-- A packet that passes the checks is of no reserved kind. -/
theorem validate_none_reserved (w : Nat) (p : Packet) (h : validate w p = none) : p.reservedError = none := by
  unfold validate at h; split at h <;> simp_all

/-- BITS(P) is the length of PLAIN(P) for every packet that passes the checks (30_encoding.md R107). -/
theorem packetBits_length (w : Nat) (p : Packet) (h : validate w p = none) :
    (packetBits w true p).length = p.bitLen w := by
  unfold packetBits Packet.bitLen
  cases hk : p.kind <;> simp_all [validate, Packet.reservedError] <;> grind

/-- BITS'(P) is the length of PULPBODY(P) for every packet that passes the checks (30_encoding.md R108). -/
theorem pulpBody_length (w : Nat) (tv : Bool) (p : Packet) (h : validate w p = none) :
    (packetBits w tv p).length = p.pulpBodyLen w tv := by
  unfold packetBits Packet.pulpBodyLen Packet.bitLen
  cases tv <;> cases hk : p.kind <;> simp_all [validate, Packet.reservedError] <;> grind

theorem serPlainOp_cases (p : Packet) (align : Nat) (carry : Byte) (s : State) :
    (∃ e, serPlain s.xlen p align carry = .error e ∧ serPlainOp p align carry s = s.fail e)
    ∨ (∃ b n, serPlain s.xlen p align carry = .ok (b, n) ∧ serPlainOp p align carry s = s.doneSer ⟨b, some n⟩) := by
  unfold serPlainOp
  cases h : serPlain s.xlen p align carry with
  | error e => left; exact ⟨e, rfl, rfl⟩
  | ok r => right; exact ⟨r.1, r.2, rfl, rfl⟩

theorem serPulpOp_cases (p : Packet) (s : State) :
    (∃ e, serPulp s.xlen s.params.pulpTval p = .error e ∧ serPulpOp p s = s.fail e)
    ∨ (∃ b, serPulp s.xlen s.params.pulpTval p = .ok b ∧ serPulpOp p s = s.doneSer ⟨b, none⟩) := by
  unfold serPulpOp
  cases h : serPulp s.xlen s.params.pulpTval p with
  | error e => left; exact ⟨e, rfl, rfl⟩
  | ok b => right; exact ⟨b, rfl, rfl⟩

/-! ### The deserializer -/

theorem plainBits_cases (bytes : List Byte) (align n : Nat) :
    (8 ≤ align ∧ plainBits bytes align n = .error .invalid)
    ∨ (align < 8 ∧ bytes.length < bytesFor (align + n) ∧ plainBits bytes align n = .error .badPacket)
    ∨ (align < 8 ∧ bytesFor (align + n) ≤ bytes.length
        ∧ plainBits bytes align n = .ok (((ofBytes bytes).drop align).take n)) := by
  unfold plainBits
  by_cases h : 8 ≤ align
  · left; simp [h]
  · right
    by_cases hb : bytes.length < bytesFor (align + n)
    · left; simp [h, hb]; omega
    · right; simp [h, hb]; omega

theorem desPlainOp_cases (bytes : List Byte) (align n : Nat) (s : State) :
    (∃ e, desPlainOp bytes align n s = s.fail e)
    ∨ (∃ p, desPlainOp bytes align n s = s.doneDes (plainResult align n p)) := by
  unfold desPlainOp
  split
  · left; exact ⟨_, rfl⟩
  · split
    · left; exact ⟨_, rfl⟩
    · right; exact ⟨_, rfl⟩

theorem desPulpOp_cases (bytes : List Byte) (s : State) :
    (∃ e, desPulpOp bytes s = s.fail e) ∨ (∃ len p, desPulpOp bytes s = s.doneDes (pulpResult len p)) := by
  unfold desPulpOp
  split
  · left; exact ⟨_, rfl⟩
  · split
    · left; exact ⟨_, rfl⟩
    · right; exact ⟨_, _, rfl⟩

/-- The meaning of a plain packet row: an error, or a serializer answer, or a deserializer answer. -/
theorem usePlain_cases (u : PlainUse) (p : Packet) (s : State) :
    (∃ e, usePlain u p s = s.fail e) ∨ (∃ o, usePlain u p s = s.doneSer o) ∨ (∃ o, usePlain u p s = s.doneDes o) := by
  cases u with
  | write align carry =>
    rcases serPlainOp_cases p align carry s with ⟨e, -, h⟩ | ⟨b, n, -, h⟩
    · left; exact ⟨e, h⟩
    · right; left; exact ⟨_, h⟩
  | read align n =>
    simp only [usePlain]
    split
    · left; exact ⟨_, rfl⟩
    · split
      · left; exact ⟨_, rfl⟩
      · right; right; exact ⟨_, rfl⟩

/-- The meaning of a PULP packet row: an error, or a serializer answer, or a deserializer answer. -/
theorem usePulp_cases (u : PulpUse) (p : Packet) (s : State) :
    (∃ e, usePulp u p s = s.fail e) ∨ (∃ o, usePulp u p s = s.doneSer o) ∨ (∃ o, usePulp u p s = s.doneDes o) := by
  cases u with
  | write =>
    rcases serPulpOp_cases p s with ⟨e, -, h⟩ | ⟨b, -, h⟩
    · left; exact ⟨e, h⟩
    · right; left; exact ⟨_, h⟩
  | read len =>
    simp only [usePulp]
    split
    · left; exact ⟨_, rfl⟩
    · right; right; exact ⟨_, rfl⟩

/-! ### Emission and PROCESS -/

/-- The plain stream writer hands out the whole bytes of carry and packet, and keeps the rest (20_memory.md R75). -/
theorem writePlain_cases (w : Nat) (p : Packet) (align : BitVec 3) (carry : BitVec 7) :
    (∃ e, validate w p = some e ∧ writePlain w p align carry = .error e)
    ∨ (validate w p = none ∧ ∃ wr, writePlain w p align carry = .ok wr
        ∧ wr.bytes = (toBytes (bitsOf align.toNat carry.toNat ++ packetBits w true p)).take ((align.toNat + p.bitLen w) / 8)
        ∧ wr.align.toNat = (align.toNat + p.bitLen w) % 8) := by
  have hc : (carry.zeroExtend 8).toNat = carry.toNat := by
    simp only [BitVec.truncate_eq_setWidth, BitVec.toNat_setWidth]
    exact Nat.mod_eq_of_lt (Nat.lt_trans carry.isLt (by decide))
  rcases serPlain_cases w p align.toNat (carry.zeroExtend 8) with ⟨h, -⟩ | ⟨-, e, hv, h⟩ | ⟨-, hv, h⟩
  · have := align.isLt; omega
  · left; exact ⟨e, hv, by simp [writePlain, h]⟩
  · right
    refine ⟨hv, ?_⟩
    simp only [writePlain, h, hc]
    by_cases h8 : (align.toNat + p.bitLen w) % 8 = 0
    · simp [h8]
    · simp only [h8, if_false]
      refine ⟨_, rfl, rfl, ?_⟩
      simp only [BitVec.toNat_ofNat]; omega

/-- Emission ends with the writer's error and keeps the statistics, or writes and queues the packet. -/
theorem emitPacket_cases (before s : State) (p : Packet) (finish : State → State) :
    (∃ e, writePacket s p = .error e
        ∧ emitPacket before s p finish = before.raise e (s.stats.countPacket s.params s.cfg0 p))
    ∨ (∃ wr, writePacket s p = .ok wr
        ∧ emitPacket before s p finish = (finish { s with
            stats := s.stats.countPacket s.params s.cfg0 p, byteOut := s.byteOut ++ wr.bytes
            wrAlign := wr.align, wrCarry := wr.carry, packetOut := s.packetOut ++ [p] }).done) := by
  unfold emitPacket
  cases h : writePacket s p with
  | error e => left; exact ⟨e, rfl, rfl⟩
  | ok wr => right; exact ⟨wr, rfl, rfl⟩

/-- Row 8 never fires (42_encoder_fsm.md R178). -/
theorem selectRow_ne_row8 (s : State) : selectRow s ≠ some .row8 := by
  unfold selectRow State.trigger8 Slot.contextChange
  simp only [Bool.false_eq_true, if_false]
  repeat' split
  all_goals simp

/-- What PROCESS can do: nothing, record an outcome, or act by a row other than row 8 (R179, R183). -/
theorem process_cases (s : State) :
    (s.thisSlot.q = false ∧ s.process = .ok (s, none))
    ∨ (s.thisSlot.q = true ∧ selectRow s.recordBranch = none ∧ s.process = .ok (s.recordBranch, none))
    ∨ (s.thisSlot.q = true ∧ ∃ row, row ≠ .row8 ∧ selectRow s.recordBranch = some row
        ∧ s.process = s.recordBranch.rowAction s.syncBranchBit row) := by
  unfold State.process
  cases hq : s.thisSlot.q with
  | false => left; simp
  | true =>
    right
    cases h : selectRow s.recordBranch with
    | none => left; simp
    | some row => right; exact ⟨rfl, row, fun e => selectRow_ne_row8 _ (e ▸ h), rfl, by simp⟩

/-- The rows that act answer one packet (42_encoder_fsm.md R183, R201). -/
theorem rowAction_cases (s : State) (bb : Bool) (row : EmitRow) (h : row ≠ .row8) :
    ∃ t p, s.rowAction bb row = .ok (t, some p)
      ∧ ((row = .row1 ∧ t = s.markEes.syncCommon ∧ p = s.syncExceptionPacket bb)
        ∨ ((row = .row2 ∨ row = .row3) ∧ t = s.syncCommon ∧ p = s.syncStartPacket bb)
        ∨ (row = .row4 ∧ t = s.flushState true ∧ p = s.flushPacket true)
        ∨ ((row = .row5 ∨ row = .row6) ∧ t = s.flushState false ∧ p = s.flushPacket false)
        ∨ (row = .row7 ∧ t = s.accReset ∧ p = s.fullmapPacket)) := by
  cases row <;> simp_all [State.rowAction]

/-- Taking the next request: none, an instruction, or an encoded packet that cannot be read. -/
theorem fetch_cases (s : State) :
    (s.opIn = [] ∧ fetch s = .idle)
    ∨ (∃ r rest i, s.opIn = r :: rest ∧ decode (Cfg0.arch64 s.cfg0) s.params.pulpTval r = .ok i
        ∧ fetch s = .run i { s with opIn := rest })
    ∨ (∃ r rest e, s.opIn = r :: rest ∧ decode (Cfg0.arch64 s.cfg0) s.params.pulpTval r = .error e
        ∧ fetch s = .reject e { s with opIn := rest }) := by
  unfold fetch
  cases h : s.opIn with
  | nil => left; simp
  | cons r rest =>
    right
    cases hd : decode (Cfg0.arch64 s.cfg0) s.params.pulpTval r with
    | ok i => left; exact ⟨r, rest, i, rfl, hd, by simp [hd]⟩
    | error e => right; exact ⟨r, rest, e, rfl, hd, by simp [hd]⟩

/-! ### The packer -/

theorem leadRun_le (s : Bits) : leadRun s ≤ s.length := by
  cases s with
  | nil => simp [leadRun]
  | cons b t =>
    have := (List.takeWhile_prefix (· == b) (l := t)).length_le
    simp only [leadRun, List.length_cons]; omega

theorem seb_le (w x : Nat) : seb w x ≤ w := by
  have := leadRun_le (bitsOf w x).reverse
  simpa [seb] using this

/-- Quantization never raises a count (41_address_packer.md R157). -/
theorem quantize_le (l : Nat) : quantize l ≤ l := by
  unfold quantize; repeat' split
  all_goals omega

theorem lead_le (qs : Bool) (w : Nat) (x : Word) : lead qs w x ≤ w := by
  unfold lead
  split
  · exact Nat.le_trans (quantize_le _) (seb_le _ _)
  · exact seb_le _ _

theorem keep_range (l w : Nat) (hw : 1 ≤ w) (hl : l ≤ w) : 1 ≤ keep l w ∧ keep l w ≤ w := by
  unfold keep; omega

/-! ### Statistics -/

theorem bump_lt (statw c k : Nat) : bump statw c k < 2 ^ statw := Nat.mod_lt _ (Nat.two_pow_pos _)

@[simp] theorem bumpAt_length (statw : Nat) (l : List Nat) (i : Nat) : (bumpAt statw l i).length = l.length := by
  induction l generalizing i with
  | nil => rfl
  | cons c t ih => cases i <;> simp [bumpAt, ih]

theorem bumpAt_lt (statw : Nat) (l : List Nat) (i : Nat) (h : ∀ c ∈ l, c < 2 ^ statw) :
    ∀ c ∈ bumpAt statw l i, c < 2 ^ statw := by
  induction l generalizing i with
  | nil => simp [bumpAt]
  | cons c t ih =>
    cases i with
    | zero => simpa [bumpAt] using ⟨bump_lt _ _ _, fun a ha => h a (by simp [ha])⟩
    | succ i => simpa [bumpAt] using ⟨h c (by simp), ih i (fun a ha => h a (by simp [ha]))⟩

end Sys2Proof.Machine
end

