-- ==== Sys2Proof/Laws/PerInstr.lean ====
section
/-! SUPPORT. A lemma for every constructor of `Instr`: the encoding of a packet begins with the fixed bits of its row of
spec/opcode_table.json (30_encoding.md R105), and a host operation has no bit encoding (R112). -/

namespace Sys2Proof.Laws.TableRow

/-- The fixed bits of a plain row: how many there are, and the row's "match" (spec/opcode_table.json). -/
def fixedBits : PacketKind → Nat × Nat
  | .branchFull => (4, 0x2)
  | .branchFullNoaddr => (9, 0x2)
  | .branchDiff => (4, 0x6)
  | .branchDiffNoaddr => (9, 0x6)
  | .addrOnly => (4, 0xA)
  | .syncStart => (6, 0xE)
  | .syncException => (6, 0x1E)
  | .syncContext => (6, 0x2E)
  | .syncReserved => (6, 0x3E)
  | .timer => (2, 0x1)
  | .software => (2, 0x3)
  | .reservedMsg0 => (2, 0x0)

/-- The encoding of an instruction begins with its row's fixed bits, which a PULP frame holds after its length
nibble; a host operation is its own request. -/
def Statement (i : Instr) : Prop :=
  ∀ arch64 tv : Bool,
    match i.form (xlen arch64) with
    | .plain k _ p => p.kind = k → value ((packetBits (xlen arch64) true p).take (fixedBits k).1) = (fixedBits k).2
    | .pulp k _ p => p.kind = k →
        value (((frameOf (packetBits (xlen arch64) tv p)).drop pulpPktLen).take (fixedBits k).1) = (fixedBits k).2
    | .host => encode arch64 tv i = .op i

/-- The body of a frame stands after the length nibble. -/
theorem frameOf_drop_take (b : Bits) (n : Nat) (h : n ≤ b.length) : ((frameOf b).drop pulpPktLen).take n = b.take n := by
  have hl : (bitsOf pulpPktLen (frameLenOf b.length)).length = pulpPktLen := rfl
  rw [frameOf, List.append_assoc, List.drop_left' hl, List.take_append_of_le_length h]

/-- The bits of a packet begin with its kind's fixed bits. -/
theorem packetBits_fixed (w : Nat) (tv : Bool) (p : Packet) :
    (fixedBits p.kind).1 ≤ (packetBits w tv p).length
    ∧ value ((packetBits w tv p).take (fixedBits p.kind).1) = (fixedBits p.kind).2 := by
  have h1 : bitsOf 2 1 = [true, false] := rfl
  have h2 : bitsOf 2 2 = [false, true] := rfl
  have h3 : bitsOf 2 3 = [true, true] := rfl
  have h0 : bitsOf 2 0 = [false, false] := rfl
  have h5 : bitsOf 5 0 = [false, false, false, false, false] := rfl
  cases hk : p.kind <;> simp [packetBits, hk, fixedBits, h0, h1, h2, h3, h5, value]

/-- The fixed bits of a frame stand after its length nibble. -/
theorem frame_fixed (w : Nat) (tv : Bool) (p : Packet) :
    value (((frameOf (packetBits w tv p)).drop pulpPktLen).take (fixedBits p.kind).1) = (fixedBits p.kind).2 := by
  rw [frameOf_drop_take _ _ (packetBits_fixed w tv p).1]
  exact (packetBits_fixed w tv p).2

theorem branchFullPlain (u : PlainUse) (branches : Nat) (branchMap : BitVec 31) (mapBits : Nat) (address : Word) (addrBits : Nat) : Statement (.branchFullPlain u branches branchMap mapBits address addrBits) :=
  fun _ _ hk => hk ▸ (packetBits_fixed _ _ _).2

theorem branchFullNoaddrPlain (u : PlainUse) (branchMap : BitVec 31) (mapBits : Nat) : Statement (.branchFullNoaddrPlain u branchMap mapBits) :=
  fun _ _ hk => hk ▸ (packetBits_fixed _ _ _).2

theorem branchDiffPlain (u : PlainUse) (branches : Nat) (branchMap : BitVec 31) (mapBits : Nat) (address : Word) (addrBits : Nat) : Statement (.branchDiffPlain u branches branchMap mapBits address addrBits) :=
  fun _ _ hk => hk ▸ (packetBits_fixed _ _ _).2

theorem branchDiffNoaddrPlain (u : PlainUse) (branchMap : BitVec 31) (mapBits : Nat) : Statement (.branchDiffNoaddrPlain u branchMap mapBits) :=
  fun _ _ hk => hk ▸ (packetBits_fixed _ _ _).2

theorem addrOnlyPlain (u : PlainUse) (address : Word) (addrBits : Nat) : Statement (.addrOnlyPlain u address addrBits) :=
  fun _ _ hk => hk ▸ (packetBits_fixed _ _ _).2

theorem syncStartPlain (u : PlainUse) (privilege : BitVec 3) (branch : Bool) (address : Word) : Statement (.syncStartPlain u privilege branch address) :=
  fun _ _ hk => hk ▸ (packetBits_fixed _ _ _).2

theorem syncExceptionPlain (u : PlainUse) (privilege : BitVec 3) (branch : Bool) (address : Word) (cause : BitVec 5) (interrupt : Bool) (tval : Word) : Statement (.syncExceptionPlain u privilege branch address cause interrupt tval) :=
  fun _ _ hk => hk ▸ (packetBits_fixed _ _ _).2

theorem syncContextPlain (u : PlainUse) (privilege : BitVec 3) : Statement (.syncContextPlain u privilege) :=
  fun _ _ hk => hk ▸ (packetBits_fixed _ _ _).2

theorem syncReservedPlain (u : PlainUse) (privilege : BitVec 3) : Statement (.syncReservedPlain u privilege) :=
  fun _ _ hk => hk ▸ (packetBits_fixed _ _ _).2

theorem timerPlain (u : PlainUse) (time : BitVec 64) : Statement (.timerPlain u time) :=
  fun _ _ hk => hk ▸ (packetBits_fixed _ _ _).2

theorem softwarePlain (u : PlainUse) (userdata : BitVec 32) : Statement (.softwarePlain u userdata) :=
  fun _ _ hk => hk ▸ (packetBits_fixed _ _ _).2

theorem reservedMsg0Plain (u : PlainUse) : Statement (.reservedMsg0Plain u) :=
  fun _ _ hk => hk ▸ (packetBits_fixed _ _ _).2

theorem branchFullPulp (u : PulpUse) (branches : Nat) (branchMap : BitVec 31) (mapBits : Nat) (address : Word) (addrBits : Nat) : Statement (.branchFullPulp u branches branchMap mapBits address addrBits) :=
  fun _ _ hk => hk ▸ frame_fixed _ _ _

theorem branchFullNoaddrPulp (u : PulpUse) (branchMap : BitVec 31) (mapBits : Nat) : Statement (.branchFullNoaddrPulp u branchMap mapBits) :=
  fun _ _ hk => hk ▸ frame_fixed _ _ _

theorem branchDiffPulp (u : PulpUse) (branches : Nat) (branchMap : BitVec 31) (mapBits : Nat) (address : Word) (addrBits : Nat) : Statement (.branchDiffPulp u branches branchMap mapBits address addrBits) :=
  fun _ _ hk => hk ▸ frame_fixed _ _ _

theorem branchDiffNoaddrPulp (u : PulpUse) (branchMap : BitVec 31) (mapBits : Nat) : Statement (.branchDiffNoaddrPulp u branchMap mapBits) :=
  fun _ _ hk => hk ▸ frame_fixed _ _ _

theorem addrOnlyPulp (u : PulpUse) (address : Word) (addrBits : Nat) : Statement (.addrOnlyPulp u address addrBits) :=
  fun _ _ hk => hk ▸ frame_fixed _ _ _

theorem syncStartPulp (u : PulpUse) (privilege : BitVec 3) (branch : Bool) (address : Word) : Statement (.syncStartPulp u privilege branch address) :=
  fun _ _ hk => hk ▸ frame_fixed _ _ _

theorem syncExceptionPulp (u : PulpUse) (privilege : BitVec 3) (branch : Bool) (address : Word) (cause : BitVec 5) (interrupt : Bool) (tval : Word) : Statement (.syncExceptionPulp u privilege branch address cause interrupt tval) :=
  fun _ _ hk => hk ▸ frame_fixed _ _ _

theorem syncContextPulp (u : PulpUse) (privilege : BitVec 3) : Statement (.syncContextPulp u privilege) :=
  fun _ _ hk => hk ▸ frame_fixed _ _ _

theorem syncReservedPulp (u : PulpUse) (privilege : BitVec 3) : Statement (.syncReservedPulp u privilege) :=
  fun _ _ hk => hk ▸ frame_fixed _ _ _

theorem timerPulp (u : PulpUse) (time : BitVec 64) : Statement (.timerPulp u time) :=
  fun _ _ hk => hk ▸ frame_fixed _ _ _

theorem softwarePulp (u : PulpUse) (userdata : BitVec 32) : Statement (.softwarePulp u userdata) :=
  fun _ _ hk => hk ▸ frame_fixed _ _ _

theorem reservedMsg0Pulp (u : PulpUse) : Statement (.reservedMsg0Pulp u) :=
  fun _ _ hk => hk ▸ frame_fixed _ _ _

theorem opReset : Statement (.opReset) := fun _ _ => rfl

theorem opConfig (cfg0 cfg1 : BitVec 32) : Statement (.opConfig cfg0 cfg1) := fun _ _ => rfl

theorem opStep (r : Record) : Statement (.opStep r) := fun _ _ => rfl

theorem opEnd : Statement (.opEnd) := fun _ _ => rfl

theorem opInject (p : Packet) : Statement (.opInject p) := fun _ _ => rfl

theorem opClearStatus : Statement (.opClearStatus) := fun _ _ => rfl

theorem opRead : Statement (.opRead) := fun _ _ => rfl

theorem opSerPlain (p : Packet) (align : Nat) (carry : Byte) : Statement (.opSerPlain p align carry) := fun _ _ => rfl

theorem opSerPulp (p : Packet) : Statement (.opSerPulp p) := fun _ _ => rfl

theorem opDesPlain (bytes : List Byte) (align n : Nat) : Statement (.opDesPlain bytes align n) := fun _ _ => rfl

theorem opDesPulp (bytes : List Byte) : Statement (.opDesPulp bytes) := fun _ _ => rfl

end Sys2Proof.Laws.TableRow
end

