-- ==== Sys2Proof/Tests/Slice0.lean ====
section
/-! SUPPORT. Tests: the well-formedness smoke tests, a word for every packet row, one-step tests with values of
95_test_vectors.md, and a witness for every statement that has hypotheses. -/

namespace Sys2Proof.Tests
open Sys2Proof.Machine

/-! ## Helpers -/

/-- The next state of an instruction; the start state if it stops. -/
def after (i : Instr) (s : State) : State :=
  match exec i s with
  | .next t => t
  | _ => s

/-- A valid record at an address. -/
def recordAt (addr instr : Nat) : Record := ⟨true, false, false, 0, 0, 3, addr, instr, false⟩

/-- A qualified slot at an address, of privilege 3. -/
def slotAt (addr : Word) : Slot := { Slot.empty with q := true, priv := 3, iaddr := addr, instr := 0x13 }

/-- A state in the middle of a trace: a window, an accumulator, `last_iaddr`, CFG0. -/
def traceState (cfg0 : BitVec 32) (last this next : Slot) (map : BranchMap) (lastIaddr : Word) : State :=
  { State.reset with cfg0 := cfg0, lastSlot := last, thisSlot := this, nextSlot := next, map := map, lastIaddr := lastIaddr }

/-- XLEN 64, PULP framing and P_PULP_TVAL 1: the configuration in which a SYNC/EXCEPTION does not fit. -/
def oversized (last this next : Slot) : State :=
  { traceState 0x41 last this next ⟨0, 0⟩ 0 with params := ⟨true, 64, referenceClassifier⟩ }

/-- The packets that an instruction queued, if it answered a next state. -/
def queued (i : Instr) (s : State) : List Packet := (after i s).packetOut.drop s.packetOut.length

/-! ## Well-formedness: an ill-formed term for each check -/

theorem test_wf_accepts : Instr.wf false false (.addrOnlyPlain (.read 3 36) 0xDEADBEEF 32) = true := by decide
theorem test_wf_align : Instr.wf false false (.addrOnlyPlain (.read 8 36) 0xDEADBEEF 32) = false := by decide
theorem test_wf_writeAlign : Instr.wf false false (.addrOnlyPlain (.write 8 0) 0xDEADBEEF 32) = false := by decide
theorem test_wf_bitCount : Instr.wf false false (.addrOnlyPlain (.read 3 37) 0xDEADBEEF 32) = false := by decide
theorem test_wf_addrBitsZero : Instr.wf false false (.addrOnlyPlain (.write 0 0) 0 0) = false := by decide
theorem test_wf_addrBitsWide : Instr.wf false false (.addrOnlyPlain (.write 0 0) 0 33) = false := by decide
theorem test_wf_addrSign : Instr.wf false false (.addrOnlyPlain (.write 0 0) 0x100 4) = false := by decide
theorem test_wf_branchesZero : Instr.wf false false (.branchFullPlain (.write 0 0) 0 0 31 0 1) = false := by decide
theorem test_wf_branchesMany : Instr.wf false false (.branchFullPlain (.write 0 0) 32 0 31 0 1) = false := by decide
theorem test_wf_mapBits : Instr.wf false false (.branchDiffPlain (.write 0 0) 3 0x4 8 0 1) = false := by decide
theorem test_wf_mapRange : Instr.wf false false (.branchDiffPlain (.write 0 0) 3 0x200 9 0 1) = false := by decide
theorem test_wf_noaddrBitsZero : Instr.wf false false (.branchFullNoaddrPlain (.write 0 0) 0 0) = false := by decide
theorem test_wf_noaddrBitsMany : Instr.wf false false (.branchDiffNoaddrPlain (.write 0 0) 0 32) = false := by decide
theorem test_wf_noaddrSign : Instr.wf false false (.branchFullNoaddrPlain (.write 0 0) 0x4 3) = false := by decide
theorem test_wf_syncAddress : Instr.wf false false (.syncStartPlain (.write 0 0) 3 true 0x100000000) = false := by decide
theorem test_wf_exceptionAddress : Instr.wf false false (.syncExceptionPlain (.write 0 0) 3 true 0x100000000 0 false 0) = false := by decide
theorem test_wf_exceptionTval : Instr.wf false false (.syncExceptionPlain (.write 0 0) 3 true 0 0 false 0x100000000) = false := by decide
theorem test_wf_pulpTval : Instr.wf false false (.syncExceptionPulp .write 3 true 0 0 false 1) = false := by decide
theorem test_wf_pulpLength : Instr.wf true true (.syncExceptionPulp .write 3 true 0 0 false 1) = false := by decide
theorem test_wf_pulpNibble : Instr.wf false false (.addrOnlyPulp (.read 2) 0xDEADBEEF 32) = false := by decide
theorem test_wf_pulpFill : Instr.wf false false (.addrOnlyPulp (.read 1) 0xFFFFFEFC 10) = false := by decide
theorem test_wf_injectKind : Instr.wf false false (.opInject Packet.reservedMsg0) = false := by decide
theorem test_wf_serAlign : Instr.wf false false (.opSerPlain (Packet.timer 0) 8 0) = false := by decide
theorem test_wf_desAlign : Instr.wf false false (.opDesPlain [] 8 1) = false := by decide
theorem test_wf_desCount : Instr.wf false false (.opDesPlain [] 0 0) = false := by decide

/-! ## Decoding: a word for every packet row. The bytes are those of 95_test_vectors.md section 1, 43_serializer.md and
44_deserializer.md, or are written out by hand from 30_encoding.md R92, R96 and R98. -/

theorem test_decode_branchFullPlain : decode false false (.plain [0xF2, 0xFF, 0xFF, 0xFF, 0xFF, 0xBE, 0xAD, 0xDE, 0xAA] 0 72)
    = .ok (.branchFullPlain (.read 0 72) 31 0x7FFFFFFF 31 0xAADEADBE 32) := by decide
theorem test_decode_branchFullNoaddrPlain : decode false false (.plain [0x02, 0x02] 0 10)
    = .ok (.branchFullNoaddrPlain (.read 0 10) 0x7FFFFFFF 1) := by decide
theorem test_decode_branchDiffPlain : decode false false (.plain [0x36, 0x08, 0x00, 0x40] 0 31)
    = .ok (.branchDiffPlain (.read 0 31) 3 0x4 9 0xFFFFF000 13) := by decide
theorem test_decode_branchDiffNoaddrPlain : decode false false (.plain [0x06, 0x0A] 0 12)
    = .ok (.branchDiffNoaddrPlain (.read 0 12) 0x7FFFFFFD 3) := by decide
theorem test_decode_addrOnlyPlain : decode false false (.plain [0xCA, 0x2F] 0 14)
    = .ok (.addrOnlyPlain (.read 0 14) 0xFFFFFEFC 10) := by decide
theorem test_decode_syncStartPlain : decode false false (.plain [0xCE, 0xF8, 0xEE, 0xDB, 0xEA, 0x0D] 0 44)
    = .ok (.syncStartPlain (.read 0 44) 3 true 0xDEADBEEF) := by decide
theorem test_decode_syncExceptionPlain :
    decode false false (.plain [0xDE, 0xF8, 0xEE, 0xDB, 0xEA, 0xAD, 0xB7, 0x7B, 0xAF, 0xFB, 0x03] 0 82)
    = .ok (.syncExceptionPlain (.read 0 82) 3 true 0xDEADBEEF 0x1A true 0xFEEBDEED) := by decide
theorem test_decode_syncContextPlain : decode false false (.plain [0xEE, 0x00] 0 11)
    = .ok (.syncContextPlain (.read 0 11) 3) := by decide
theorem test_decode_syncReservedPlain : decode false false (.plain [0xFE, 0x00] 0 11)
    = .ok (.syncReservedPlain (.read 0 11) 3) := by decide
theorem test_decode_timerPlain : decode false false (.plain [0xBD, 0x37, 0xAF, 0x26, 0x9E, 0x15, 0x8D, 0x04, 0x00] 0 66)
    = .ok (.timerPlain (.read 0 66) 0x0123456789ABCDEF) := by decide +kernel
theorem test_decode_softwarePlain : decode false false (.plain [0xE3, 0x59, 0xD1, 0x48, 0x00] 0 34)
    = .ok (.softwarePlain (.read 0 34) 0x12345678) := by decide
theorem test_decode_reservedMsg0Plain : decode false false (.plain [0x00] 0 2) = .ok (.reservedMsg0Plain (.read 0 2)) := by decide
theorem test_decode_branchFullPulp : decode false false (.pulp [0x28, 0xFF, 0xFF, 0xFF, 0xFF, 0xEF, 0xDB, 0xEA, 0xAD, 0xFA])
    = .ok (.branchFullPulp (.read 8) 31 0x7FFFFFFF 31 0xAADEADBE 32) := by decide
theorem test_decode_branchFullNoaddrPulp : decode false false (.pulp [0x20, 0xE0])
    = .ok (.branchFullNoaddrPulp (.read 0) 0x7FFFFFFF 3) := by decide
theorem test_decode_branchDiffPulp : decode false false (.pulp [0x63, 0x83, 0x00, 0x00, 0xFC])
    = .ok (.branchDiffPulp (.read 3) 3 0x4 9 0xFFFFF000 18) := by decide
theorem test_decode_branchDiffNoaddrPulp : decode false false (.pulp [0x60, 0xA0])
    = .ok (.branchDiffNoaddrPulp (.read 0) 0x7FFFFFFD 3) := by decide
theorem test_decode_addrOnlyPulp : decode false false (.pulp [0xA1, 0xFC, 0xFE])
    = .ok (.addrOnlyPulp (.read 1) 0xFFFFFEFC 16) := by decide
theorem test_decode_syncStartPulp : decode false false (.pulp [0xE4, 0x8C, 0xEF, 0xBE, 0xAD, 0xDE])
    = .ok (.syncStartPulp (.read 4) 3 true 0xDEADBEEF) := by decide
theorem test_decode_syncExceptionPulp : decode false false (.pulp [0xE5, 0x8D, 0xEF, 0xBE, 0xAD, 0xDE, 0xFA])
    = .ok (.syncExceptionPulp (.read 5) 3 true 0xDEADBEEF 0x1A true 0) := by decide
theorem test_decode_syncContextPulp : decode false false (.pulp [0xE0, 0x0E]) = .ok (.syncContextPulp (.read 0) 3) := by decide
theorem test_decode_syncReservedPulp : decode false false (.pulp [0xE0, 0x0F]) = .ok (.syncReservedPulp (.read 0) 3) := by decide
theorem test_decode_timerPulp : decode false false (.pulp [0xD7, 0x7B, 0xF3, 0x6A, 0xE2, 0x59, 0xD1, 0x48, 0x00])
    = .ok (.timerPulp (.read 7) 0x0123456789ABCDEF) := by decide +kernel
theorem test_decode_softwarePulp : decode false false (.pulp [0x33, 0x9E, 0x15, 0x8D, 0x04])
    = .ok (.softwarePulp (.read 3) 0x12345678) := by decide
theorem test_decode_reservedMsg0Pulp : decode false false (.pulp [0x00, 0x00]) = .ok (.reservedMsg0Pulp (.read 0)) := by decide
/-- The host operations have no bit encoding (30_encoding.md R112): a request is the operation itself. -/
theorem test_decode_hostOperations (arch64 tv : Bool) (i : Instr) : decode arch64 tv (.op i) = .ok i := rfl

/-! ## One step of each instruction -/

/-- 44_deserializer.md R280, the example at alignment 3. -/
theorem test_opDesPlain_align3 : (after (.opDesPlain [0xD5, 0x77, 0xDF, 0x56, 0x6F] 3 36) State.reset).ports.des
    = some ⟨Packet.addrOnly 0xDEADBEEF 32, 4, some 7⟩ := by decide
/-- 43_serializer.md R242, the example at alignment 3. -/
theorem test_opSerPlain_align3 : (after (.opSerPlain (Packet.addrOnly 0xDEADBEEF 32) 3 0x5) State.reset).ports.ser
    = some ⟨[0xD5, 0x77, 0xDF, 0x56, 0x6F], some 36⟩ := by decide
/-- 43_serializer.md R243, Scenario 1's frame: the fill copies address bit 31. -/
theorem test_opSerPulp_fill : (after (.opSerPulp (Packet.branchFull 31 0x7FFFFFFF 31 0xAADEADBE 32)) State.reset).ports.ser
    = some ⟨[0x28, 0xFF, 0xFF, 0xFF, 0xFF, 0xEF, 0xDB, 0xEA, 0xAD, 0xFA], none⟩ := by decide
/-- 44_deserializer.md R281: a frame cut short. -/
theorem test_opDesPulp_short : (after (.opDesPulp [0x03, 0x12]) State.reset).status = .badPacket := by decide
/-- 95_test_vectors.md section 1, Scenario 2. -/
theorem test_branchFullPlain_scenario2 :
    (after (.branchFullPlain (.write 0 0) 25 0x1FFFFFF 25 0xAADEADBE 32) State.reset).ports.ser
    = some ⟨[0x92, 0xFF, 0xFF, 0xFF, 0xFB, 0xB6, 0x7A, 0xAB, 0x02], some 66⟩ := by decide
/-- 43_serializer.md R233. -/
theorem test_branchDiffPlain_example : (after (.branchDiffPlain (.write 0 0) 3 0x4 9 0xFFFFF000 13) State.reset).ports.ser
    = some ⟨[0x36, 0x08, 0x00, 0x40], some 31⟩ := by decide
/-- 43_serializer.md R234. -/
theorem test_branchFullNoaddrPlain_example : (after (.branchFullNoaddrPlain (.write 0 0) 0x7FFFFFFF 1) State.reset).ports.ser
    = some ⟨[0x02, 0x02], some 10⟩ := by decide
/-- Scenario 5, and its PULP frame without tval. -/
theorem test_syncExceptionPlain_scenario5 :
    (after (.syncExceptionPlain (.write 0 0) 3 true 0xDEADBEEF 0x1A true 0xFEEBDEED) State.reset).ports.ser
    = some ⟨[0xDE, 0xF8, 0xEE, 0xDB, 0xEA, 0xAD, 0xB7, 0x7B, 0xAF, 0xFB, 0x03], some 82⟩ := by decide
theorem test_syncExceptionPulp_scenario5 :
    (after (.syncExceptionPulp .write 3 true 0xDEADBEEF 0x1A true 0xFEEBDEED) State.reset).ports.ser
    = some ⟨[0xE5, 0x8D, 0xEF, 0xBE, 0xAD, 0xDE, 0xFA], none⟩ := by decide
/-- Section 1.1's note: the frame with P_PULP_TVAL 1. -/
theorem test_syncExceptionPulp_tval :
    (after (.syncExceptionPulp .write 3 true 0xDEADBEEF 0x1A true 0xFEEBDEED)
      { State.reset with params := ⟨true, 64, referenceClassifier⟩ }).ports.ser
    = some ⟨[0xE9, 0x8D, 0xEF, 0xBE, 0xAD, 0xDE, 0x7A, 0xBB, 0xF7, 0xBA, 0xFF], none⟩ := by decide
theorem test_syncStartPulp_scenario4 : (after (.syncStartPulp .write 3 true 0xDEADBEEF) State.reset).ports.ser
    = some ⟨[0xE4, 0x8C, 0xEF, 0xBE, 0xAD, 0xDE], none⟩ := by decide
theorem test_addrOnlyPulp_scenario3 : (after (.addrOnlyPulp .write 0xDEADBEEF 32) State.reset).ports.ser
    = some ⟨[0xA3, 0xEF, 0xBE, 0xAD, 0xDE], none⟩ := by decide
/-- 43_serializer.md R240, R241. -/
theorem test_softwarePlain_example : (after (.softwarePlain (.write 0 0) 0x12345678) State.reset).ports.ser
    = some ⟨[0xE3, 0x59, 0xD1, 0x48, 0x00], some 34⟩ := by decide
theorem test_timerPlain_example : (after (.timerPlain (.write 0 0) 0x0123456789ABCDEF) State.reset).ports.ser
    = some ⟨[0xBD, 0x37, 0xAF, 0x26, 0x9E, 0x15, 0x8D, 0x04, 0x00], some 66⟩ := by decide
/-- 44_deserializer.md R271: the reserved kinds. -/
theorem test_syncContextPlain_read : (after (.opDesPlain [0xEE, 0x00] 0 11) State.reset).status = .unimplemented := by decide
theorem test_syncReservedPlain_read : (after (.opDesPlain [0xFE, 0x00] 0 11) State.reset).status = .badPacket := by decide
theorem test_reservedMsg0Pulp_read : (after (.opDesPulp [0x00, 0x00]) State.reset).status = .badPacket := by decide
/-- 42_encoder_fsm.md R171: the reserved bits are dropped. -/
theorem test_opConfig_reserved : (after (.opConfig 0xFFFFFF88 7) State.reset).cfg0 = 0x08 := by decide
/-- 95_test_vectors.md program P4, step 2: the SYNC/START of the first record, and the bits carried. -/
theorem test_opStep_firstSync :
    (after (.opStep (recordAt 0x404 0x1463)) (traceState 0x20 Slot.empty Slot.empty (slotAt 0x400) ⟨0, 0⟩ 0)).byteOut
    = [0xCE, 0x00, 0x40, 0x00, 0x00] := by decide
/-- Program P4, step 33: the full map, compressed to one bit. -/
theorem test_opStep_fullMap :
    queued (.opStep (recordAt 0x480 0x13))
      (traceState 0x20 (slotAt 0x474) (slotAt 0x478) { slotAt 0x47C with isBranch := true } ⟨0x3FFFFFFF, 30⟩ 0x400)
    = [Packet.branchFullNoaddr 0x7FFFFFFF 1] := by decide
/-- TRDB Scenario 6 under OP_END (42_encoder_fsm.md R189, R194). -/
theorem test_opEnd_lastRecord :
    queued .opEnd (traceState 0x08 (slotAt 0x100) (slotAt 0x200) (slotAt 0x204) ⟨0, 0⟩ 0x100)
    = [Packet.addrOnly 0xFFFFFEFC 10] := by decide
/-- 20_memory.md R77: the started byte is handed out. -/
theorem test_opEnd_flush : (after .opEnd { State.reset with wrAlign := 5, wrCarry := 0x12 }).byteOut = [0x12] := by decide
/-- 42_encoder_fsm.md R177: 8 bytes are appended and 2 bits carried. -/
theorem test_opInject_timer :
    (after (.opInject (Packet.timer 0x0123456789ABCDEF)) State.reset).wrAlign = 2
    ∧ (after (.opInject (Packet.timer 0x0123456789ABCDEF)) State.reset).byteOut.length = 8 := by decide
theorem test_opInject_other : (after (.opInject (Packet.addrOnly 0 1)) State.reset).status = .invalid := by decide
/-- 60_exceptions.md R306. -/
theorem test_opClearStatus : (after .opClearStatus { State.reset with status := .badInstr }).status = .noError := by decide
/-- 10_state.md R35: STATUS is read as it is. -/
theorem test_opRead_status :
    ((after .opRead { State.reset with status := .badInstr }).ports.read.map ReadOut.status) = some .badInstr := by decide
/-- 70_reset_and_hazards.md R340: the queues are kept. -/
theorem test_opReset_queues : (after .opReset { State.reset with byteOut := [1], cfg0 := 3 }).byteOut = [1] := by decide
/-- 95_test_vectors.md program PE: the hardware-loop word is refused. -/
theorem test_opStep_unsupported :
    (after (.opStep (recordAt 0x504 0x7B)) (traceState 0 Slot.empty Slot.empty (slotAt 0x500) ⟨0, 0⟩ 0)).status = .badInstr := by decide
/-- A word of the opcode table, run as the first instruction after reset. -/
theorem test_withFetchWord_addrOnly : decodeTableWord 8 0xA = some (.addrOnlyPlain (.read 0 36) 0 32) := by decide +kernel

/-! ## Witnesses: for every statement with hypotheses, a concrete state and operands that meet them together, for each
clause at a boundary of its range. -/

/-- A trace state with one record in every slot. -/
def midTrace : State := traceState 0 (slotAt 0x100) (slotAt 0x104) (slotAt 0x108) ⟨0, 0⟩ 0x100

/-- The slot that a record at 0x10C has after `midTrace`. -/
def nextRecord : Record := recordAt 0x10C 0x13

/-- A state in which the slot to be processed follows a trap. -/
def afterTrap : State := traceState 0 (slotAt 0x100) { slotAt 0x104 with exception := true, cause := 8 } (slotAt 0x40) ⟨0, 0⟩ 0x100

/-- A state in which a branch is the 31st of the map. -/
def fullMap : State := traceState 0x20 (slotAt 0x474) (slotAt 0x478) { slotAt 0x47C with isBranch := true } ⟨0x3FFFFFFF, 30⟩ 0x400

theorem midTrace_step : Shifts midTrace (.opStep nextRecord) (slotOf 32 ⟨false, false, false⟩ nextRecord (slotAt 0x108)) :=
  Shifts.record nextRecord rfl rfl

theorem midTrace_exec : exec (.opStep nextRecord) midTrace = .next (after (.opStep nextRecord) midTrace) := rfl

theorem midTrace_inv : midTrace.Inv where
  cfg0_reserved := fun i _ => by simp [midTrace, traceState]
  lastSlot := ⟨by decide, by decide, by decide⟩
  thisSlot := ⟨by decide, by decide, by decide⟩
  nextSlot := ⟨by decide, by decide, by decide⟩
  this_changes := by intro h; cases h
  next_changes := by intro h; cases h
  this_ees := by decide
  next_ees := rfl
  map_cnt := by decide
  map_bits := by decide
  lastIaddr_fits := by decide
  resyncCnt := rfl
  resyncPend := rfl
  wrCarry := by decide
  pulp_aligned := by decide
  stats := by constructor <;> decide

theorem midTrace_inv_opIn (rs : List Request) : ({ midTrace with opIn := rs } : State).Inv :=
  ⟨midTrace_inv.cfg0_reserved, midTrace_inv.lastSlot, midTrace_inv.thisSlot, midTrace_inv.nextSlot, midTrace_inv.this_changes,
    midTrace_inv.next_changes, midTrace_inv.this_ees, midTrace_inv.next_ees, midTrace_inv.map_cnt, midTrace_inv.map_bits,
    midTrace_inv.lastIaddr_fits, midTrace_inv.resyncCnt, midTrace_inv.resyncPend, midTrace_inv.wrCarry,
    midTrace_inv.pulp_aligned, midTrace_inv.stats⟩

theorem witness_InvalidRecordChangesNothing : (⟨false, true, true, 0, 0, 3, 0x100, 0x7B, true⟩ : Record).valid = false := rfl

theorem witness_UnsupportedRecordRaisesBadInstr :
    (recordAt 0x504 0x7B).valid = true
    ∧ (classify State.reset.params.classifier (BitVec.ofNat 64 (recordAt 0x504 0x7B).instr) (State.reset.cfg0.getLsbD 3)).isUnsupported = true := by
  decide

theorem witness_SupportedRecordEntersTheWindow :
    nextRecord.valid = true
    ∧ (classify midTrace.params.classifier (BitVec.ofNat 64 nextRecord.instr) (midTrace.cfg0.getLsbD 3)).isUnsupported = false
    ∧ exec (.opStep nextRecord) midTrace = .next (after (.opStep nextRecord) midTrace)
    ∧ (after (.opStep nextRecord) midTrace).ports.result = .noError :=
  ⟨rfl, by decide, rfl, by decide⟩

theorem witness_FirstRecordOnlyEntersTheWindow :
    nextRecord.valid = true ∧ (State.reset.classOf nextRecord).isUnsupported = false ∧ State.reset.nextSlot.q = false := by
  decide

theorem witness_EndOfAnEmptyWindowFlushesTheWriter :
    State.reset.nextSlot.q = false ∧ ({ State.reset with wrAlign := 5, wrCarry := 0x12 } : State).nextSlot.q = false := by decide

theorem witness_RecordAfterATrapGetsSyncException :
    Shifts afterTrap .opEnd Slot.empty
    ∧ Shifts afterTrap (.opStep nextRecord) (slotOf 32 ⟨false, false, false⟩ nextRecord (slotAt 0x40))
    ∧ afterTrap.nextSlot.q = true ∧ afterTrap.thisSlot.exception = true ∧ afterTrap.overflows = false :=
  ⟨.finish, .record nextRecord rfl rfl, rfl, rfl, by decide⟩

theorem witness_OversizedSyncExceptionRaisesBadPacket :
    Shifts (oversized (slotAt 0x100) { slotAt 0x104 with exception := true } (slotAt 0x40)) .opEnd Slot.empty
    ∧ Shifts (oversized (slotAt 0x100) { slotAt 0x104 with exception := true } (slotAt 0x40)) (.opStep nextRecord)
        (slotOf 64 ⟨false, false, false⟩ nextRecord (slotAt 0x40))
    ∧ (oversized (slotAt 0x100) { slotAt 0x104 with exception := true } (slotAt 0x40)).nextSlot.q = true
    ∧ (oversized (slotAt 0x100) { slotAt 0x104 with exception := true } (slotAt 0x40)).thisSlot.exception = true
    ∧ (oversized (slotAt 0x100) { slotAt 0x104 with exception := true } (slotAt 0x40)).overflows = true :=
  ⟨.finish, .record nextRecord rfl rfl, by decide⟩

/-- The record after a SYNC/EXCEPTION, with `pulp_vector_table_packet`. -/
def afterVector : State := traceState 0x10 (slotAt 0x100) { slotAt 0x40 with ees := true } (slotAt 0x44) ⟨0, 0⟩ 0

/-- The first record of a trace, a branch. -/
def firstRecord : State := traceState 0 Slot.empty Slot.empty { slotAt 0x108 with isBranch := true } ⟨0, 0⟩ 0

/-- The first record of a privilege. -/
def changedRecord : State := traceState 0 (slotAt 0x100) (slotAt 0x104) { slotAt 0x108 with privilegeChange := true, priv := 0 } ⟨0, 0⟩ 0

/-- Each of the three triggers; the first record is a branch that was not taken. -/
theorem witness_FirstOrChangedRecordGetsSyncStart :
    (Shifts afterVector .opEnd Slot.empty ∧ afterVector.nextSlot.q = true ∧ afterVector.thisSlot.exception = false
      ∧ afterVector.thisSlot.ees = true ∧ afterVector.cfg0.getLsbD 4 = true)
    ∧ (Shifts firstRecord (.opStep nextRecord) (slotOf 32 ⟨false, false, false⟩ nextRecord firstRecord.nextSlot)
      ∧ firstRecord.nextSlot.q = true ∧ firstRecord.thisSlot.exception = false ∧ firstRecord.thisSlot.q = false
      ∧ notTaken 32 firstRecord.nextSlot (slotOf 32 ⟨false, false, false⟩ nextRecord firstRecord.nextSlot) = true)
    ∧ (Shifts changedRecord .opEnd Slot.empty ∧ changedRecord.nextSlot.q = true ∧ changedRecord.thisSlot.exception = false
      ∧ changedRecord.nextSlot.privilegeChange = true) :=
  ⟨⟨.finish, by decide⟩, ⟨.record nextRecord rfl rfl, by decide⟩, .finish, by decide⟩

/-- The premises of the flush statement on the state alone. -/
def quiet (s : State) : Bool :=
  s.nextSlot.q && !s.thisSlot.exception && !(s.thisSlot.ees && s.cfg0.getLsbD 4) && s.thisSlot.q && !s.nextSlot.privilegeChange
    && !s.resyncPend

/-- A discontinuity before the record at 0x200, under `full_address`. -/
def afterJump : State := traceState 2 (slotAt 0x100) { slotAt 0x104 with unpredDisc := true } (slotAt 0x200) ⟨0, 0⟩ 0x100

/-- A branch before a privilege change. -/
def beforeChange : State := traceState 0 (slotAt 0x100) (slotAt 0x104) { slotAt 0x108 with isBranch := true } ⟨0, 0⟩ 0x100

/-- A discontinuity before the branch that fills the map. -/
def fullAfterJump : State := { fullMap with thisSlot := { slotAt 0x478 with unpredDisc := true } }

/-- Each of the four triggers; a map of 31 with and without a discontinuity, of 1 and of 0 outcomes. -/
theorem witness_FlushCarriesTheMapAndTheAddress :
    (Shifts midTrace .opEnd Slot.empty ∧ quiet midTrace = true ∧ Slot.empty.q = false ∧ (midTrace.mapSeen Slot.empty).cnt = 0)
    ∧ (Shifts afterJump (.opStep nextRecord) (slotOf 32 ⟨false, false, false⟩ nextRecord (slotAt 0x200))
      ∧ quiet afterJump = true ∧ afterJump.thisSlot.unpredDisc = true)
    ∧ (Shifts fullMap (.opStep { recordAt 0x480 0x13 with exception := true })
        (slotOf 32 ⟨false, false, false⟩ { recordAt 0x480 0x13 with exception := true } fullMap.nextSlot)
      ∧ quiet fullMap = true
      ∧ (fullMap.mapSeen (slotOf 32 ⟨false, false, false⟩ { recordAt 0x480 0x13 with exception := true } fullMap.nextSlot)).cnt = 31)
    ∧ (Shifts fullAfterJump (.opStep (recordAt 0x480 0x13)) (slotOf 32 ⟨false, false, false⟩ (recordAt 0x480 0x13) fullAfterJump.nextSlot)
      ∧ quiet fullAfterJump = true
      ∧ (fullAfterJump.mapSeen (slotOf 32 ⟨false, false, false⟩ (recordAt 0x480 0x13) fullAfterJump.nextSlot)).cnt = 31)
    ∧ (Shifts beforeChange (.opStep { nextRecord with priv := 0 })
        (slotOf 32 ⟨false, false, false⟩ { nextRecord with priv := 0 } beforeChange.nextSlot)
      ∧ quiet beforeChange = true
      ∧ (slotOf 32 ⟨false, false, false⟩ { nextRecord with priv := 0 } beforeChange.nextSlot).privilegeChange = true
      ∧ (beforeChange.mapSeen (slotOf 32 ⟨false, false, false⟩ { nextRecord with priv := 0 } beforeChange.nextSlot)).cnt = 1) :=
  ⟨⟨.finish, by decide⟩, ⟨.record nextRecord rfl rfl, by decide⟩, ⟨.record _ rfl rfl, by decide⟩, ⟨.record _ rfl rfl, by decide⟩,
    .record _ rfl rfl, by decide⟩

theorem witness_FullMapIsSentWithoutAddress :
    Shifts fullMap (.opStep (recordAt 0x480 0x13)) (slotOf 32 ⟨false, false, false⟩ (recordAt 0x480 0x13) fullMap.nextSlot)
    ∧ fullMap.nextSlot.q = true ∧ fullMap.thisSlot.exception = false ∧ (fullMap.thisSlot.ees && fullMap.cfg0.getLsbD 4) = false
    ∧ fullMap.thisSlot.q = true ∧ fullMap.nextSlot.privilegeChange = false ∧ fullMap.resyncPend = false
    ∧ fullMap.thisSlot.unpredDisc = false
    ∧ (slotOf 32 ⟨false, false, false⟩ (recordAt 0x480 0x13) fullMap.nextSlot).exception = false
    ∧ (slotOf 32 ⟨false, false, false⟩ (recordAt 0x480 0x13) fullMap.nextSlot).privilegeChange = false
    ∧ (slotOf 32 ⟨false, false, false⟩ (recordAt 0x480 0x13) fullMap.nextSlot).q = true
    ∧ (fullMap.mapSeen (slotOf 32 ⟨false, false, false⟩ (recordAt 0x480 0x13) fullMap.nextSlot)).cnt = 31 :=
  ⟨.record _ rfl rfl, by decide⟩

theorem witness_PredictableRecordOnlyRecordsItsBranch :
    Shifts midTrace (.opStep nextRecord) (slotOf 32 ⟨false, false, false⟩ nextRecord (slotAt 0x108))
    ∧ midTrace.nextSlot.q = true ∧ midTrace.thisSlot.exception = false ∧ (midTrace.thisSlot.ees && midTrace.cfg0.getLsbD 4) = false
    ∧ midTrace.thisSlot.q = true ∧ midTrace.nextSlot.privilegeChange = false ∧ midTrace.resyncPend = false
    ∧ midTrace.thisSlot.unpredDisc = false
    ∧ (slotOf 32 ⟨false, false, false⟩ nextRecord (slotAt 0x108)).exception = false
    ∧ (slotOf 32 ⟨false, false, false⟩ nextRecord (slotAt 0x108)).privilegeChange = false
    ∧ (slotOf 32 ⟨false, false, false⟩ nextRecord (slotAt 0x108)).q = true
    ∧ (midTrace.mapSeen (slotOf 32 ⟨false, false, false⟩ nextRecord (slotAt 0x108))).cnt ≠ 31 :=
  ⟨midTrace_step, by decide⟩

theorem witness_EncodeAnswersOkUnlessOversized :
    Shifts midTrace .opEnd Slot.empty ∧ Shifts midTrace (.opStep nextRecord) (slotOf 32 ⟨false, false, false⟩ nextRecord (slotAt 0x108))
    ∧ midTrace.overflows = false :=
  ⟨.finish, midTrace_step, by decide⟩

theorem witness_InjectEmitsTimerAndSoftwareOnly :
    (Packet.timer 0).msgType = 1 ∧ (Packet.software 0).msgType = 3
    ∧ ¬ (Packet.reservedMsg0.msgType = 1 ∨ Packet.reservedMsg0.msgType = 3)
    ∧ ¬ ((Packet.addrOnly 0 1).msgType = 1 ∨ (Packet.addrOnly 0 1).msgType = 3) := by decide

/-- A carry of 7 bits, all 1, and OP_END, which pads. -/
theorem witness_PlainStreamIsThePacketsInOrder :
    Cfg0.pulpFraming ({ midTrace with wrAlign := 7, wrCarry := 127 } : State).cfg0 = false
    ∧ ({ midTrace with wrAlign := 7, wrCarry := 127 } : State).wrCarry.toNat < 2 ^ ({ midTrace with wrAlign := 7, wrCarry := 127 } : State).wrAlign.toNat
    ∧ Instr.opEnd ≠ .opReset ∧ (∀ c0 c1, Instr.opEnd ≠ .opConfig c0 c1)
    ∧ exec .opEnd { midTrace with wrAlign := 7, wrCarry := 127 } = .next (after .opEnd { midTrace with wrAlign := 7, wrCarry := 127 }) :=
  ⟨by decide, by decide, by decide, by simp, rfl⟩

theorem witness_PulpStreamIsWholeFrames :
    Cfg0.pulpFraming ({ midTrace with cfg0 := 0x40 } : State).cfg0 = true ∧ ({ midTrace with cfg0 := 0x40 } : State).wrAlign = 0
    ∧ exec .opEnd { midTrace with cfg0 := 0x40 } = .next (after .opEnd { midTrace with cfg0 := 0x40 })
    ∧ queued .opEnd { midTrace with cfg0 := 0x40 } ≠ [] :=
  ⟨by decide, by decide, rfl, by decide⟩

theorem witness_EmissionCountsThePacket :
    exec .opEnd midTrace = .next (after .opEnd midTrace)
    ∧ (after .opEnd midTrace).packetOut = midTrace.packetOut ++ [Packet.addrOnly 0xFFFFFFF8 4] := ⟨rfl, by decide⟩

theorem witness_QueuedPacketsAreSignConsistent :
    midTrace.Inv ∧ exec .opEnd midTrace = .next (after .opEnd midTrace)
    ∧ (after .opEnd midTrace).packetOut = midTrace.packetOut ++ [Packet.addrOnly 0xFFFFFFF8 4] := ⟨midTrace_inv, rfl, by decide⟩

/-- Alignment 7; 1 and 31 outcomes, 1 and 32 address bits; each way of being out of range. -/
theorem witness_PlainBranchWithAddressLayout :
    7 < 8 ∧ (1 ≠ 0 ∧ 1 ≤ 31 ∧ 1 = bml 1 ∧ 1 ≤ 1 ∧ 1 ≤ State.reset.xlen)
    ∧ (31 ≠ 0 ∧ 31 ≤ 31 ∧ 31 = bml 31 ∧ 1 ≤ 32 ∧ 32 ≤ State.reset.xlen)
    ∧ ¬ (32 ≤ 31) ∧ ¬ (8 = bml 2) ∧ ¬ (1 ≤ 0) ∧ ¬ (33 ≤ State.reset.xlen) := by decide

theorem witness_PlainMapOnlyAndAddressOnlyLayout :
    7 < 8 ∧ (1 ≤ 1 ∧ 1 ≤ 31) ∧ (1 ≤ 31 ∧ 31 ≤ 31) ∧ ¬ (1 ≤ 0 ∧ 0 ≤ 31) ∧ ¬ (1 ≤ 32 ∧ 32 ≤ 31)
    ∧ (1 ≤ 32 ∧ 32 ≤ State.reset.xlen) ∧ ¬ (1 ≤ 33 ∧ 33 ≤ State.reset.xlen) := by decide

theorem witness_FixedLengthAndReservedAlign : 0 < 8 ∧ 7 < 8 := by decide

theorem witness_FrameHoldsLengthBodyAndFill : 5 ≤ (bitsOf 5 0x1A).length := by decide

theorem witness_PulpBranchAndAddressLayout :
    (1 ≠ 0 ∧ 1 ≤ 31 ∧ 1 = bml 1 ∧ 1 ≤ 1 ∧ 1 ≤ State.reset.xlen) ∧ (31 ≤ 31 ∧ 31 = bml 31 ∧ 32 ≤ State.reset.xlen)
    ∧ (1 ≤ 1 ∧ 31 ≤ 31) ∧ (1 ≤ 32 ∧ 32 ≤ State.reset.xlen) := by decide

/-- A packet for each clause: each check of R231, the overflow, and a packet that passes. -/
theorem witness_SerializerChecksInOrder :
    8 ≤ 8 ∧ 7 < 8 ∧ Packet.reservedMsg0.msgType = 0
    ∧ ((Packet.syncReserved 0).msgType = 2 ∧ (Packet.syncReserved 0).format = 3 ∧ (Packet.syncReserved 0).subformat = 3)
    ∧ ((Packet.syncContext 0).msgType = 2 ∧ (Packet.syncContext 0).format = 3 ∧ (Packet.syncContext 0).subformat = 2)
    ∧ 31 < (Packet.branchFull 32 0 31 0 1).branches ∧ (Packet.branchDiff 31 0 30 0 1).mapBits ≠ bml 31
    ∧ (Packet.branchFullNoaddr 0 0).mapBits < 1 ∧ 31 < (Packet.branchDiffNoaddr 0 32).mapBits
    ∧ (Packet.addrOnly 0 0).addrBits < 1 ∧ State.reset.xlen < (Packet.addrOnly 0 33).addrBits
    ∧ 136 < 4 + (packetBits 64 true (Packet.syncException 64 3 false 0 0 false 0)).length
    ∧ ¬ (136 < 4 + (packetBits 64 false (Packet.syncException 64 3 false 0 0 false 0)).length) := by
  decide +kernel

theorem witness_BitsAndBytesAreLeastSignificantFirst : 7 < 8 ∧ 1 < ((bitsOf 9 0x1FF).length + 7) / 8 := by decide

/-- Each clause of R280: a bad alignment, a byte too few, a reserved packet, a packet that is read. -/
theorem witness_DesPlainParsesTheBitsAtAlign :
    8 ≤ 8 ∧ ([0xFA, 0xEE, 0xDB, 0xEA] : List Byte).length < (0 + 36 + 7) / 8
    ∧ ((0 + 11 + 7) / 8 ≤ ([0xFE, 0x00] : List Byte).length
      ∧ deserialize 32 true (((ofBytes [0xFE, 0x00]).drop 0).take 11) = .error .badPacket)
    ∧ ((3 + 36 + 7) / 8 ≤ ([0xD5, 0x77, 0xDF, 0x56, 0x6F] : List Byte).length
      ∧ deserialize 32 true (((ofBytes [0xD5, 0x77, 0xDF, 0x56, 0x6F]).drop 3).take 36) = .ok (Packet.addrOnly 0xDEADBEEF 32)) := by
  decide

theorem witness_DesPulpParsesOneFrame :
    ([0x12] : List Byte).length < (0x03 : Byte).toNat % 16 + 1
    ∧ ((0xE0 : Byte).toNat % 16 + 1 ≤ ([0x0E] : List Byte).length
      ∧ deserialize 32 false ((ofBytes (([0xE0, 0x0E] : List Byte).take 2)).drop 4) = .error .unimplemented)
    ∧ ((0xA1 : Byte).toNat % 16 + 1 ≤ ([0xFC, 0xFE] : List Byte).length
      ∧ deserialize 32 false ((ofBytes (([0xA1, 0xFC, 0xFE] : List Byte).take 3)).drop 4) = .ok (Packet.addrOnly 0xFFFFFEFC 16)) := by
  decide

/-- The reserved message type, a packet of each kind one bit too short, the reserved subformat, CONTEXT at 6 bits. -/
theorem witness_ParseRejectsReservedAndTruncated :
    readBits (bitsOf 2 0) 0 2 = 0 ∧ (bitsOf 1 0).length < 2
    ∧ (readBits (bitsOf 65 1) 0 2 = 1 ∧ (bitsOf 65 1).length < 66) ∧ (readBits (bitsOf 33 3) 0 2 = 3 ∧ (bitsOf 33 3).length < 2 + 32)
    ∧ (readBits (bitsOf 3 2) 0 2 = 2 ∧ (bitsOf 3 2).length < 4)
    ∧ (readBits (bitsOf 10 0x12) 2 2 ≤ 1 ∧ readBits (bitsOf 10 0x12) 4 5 = 1 ∧ (bitsOf 10 0x12).length < 9 + bml 1 + 1)
    ∧ (readBits (bitsOf 9 0x6) 2 2 ≤ 1 ∧ readBits (bitsOf 9 0x6) 4 5 = 0 ∧ (bitsOf 9 0x6).length < 10)
    ∧ (readBits (bitsOf 4 0xA) 2 2 = 2 ∧ (bitsOf 4 0xA).length < 5) ∧ (readBits (bitsOf 6 0x3E) 2 2 = 3 ∧ readBits (bitsOf 6 0x3E) 4 2 = 3)
    ∧ (readBits (bitsOf 43 0xE) 4 2 = 0 ∧ (bitsOf 43 0xE).length < 12 + 32) ∧ (readBits (bitsOf 49 0x1E) 4 2 = 1 ∧ (bitsOf 49 0x1E).length < 18 + 32 + 0)
    ∧ (6 ≤ (bitsOf 6 0x2E).length ∧ readBits (bitsOf 6 0x2E) 0 2 = 2 ∧ readBits (bitsOf 6 0x2E) 2 2 = 3 ∧ readBits (bitsOf 6 0x2E) 4 2 = 2) := by
  decide

theorem witness_ParseReadsBranchPackets :
    (4 ≤ (bitsOf 11 0x12).length ∧ readBits (bitsOf 11 0x12) 0 2 = 2 ∧ readBits (bitsOf 11 0x12) 2 2 ≤ 1
      ∧ readBits (bitsOf 11 0x12) 4 5 ≠ 0 ∧ 9 + bml (readBits (bitsOf 11 0x12) 4 5) + 1 ≤ (bitsOf 11 0x12).length)
    ∧ (readBits (bitsOf 10 0x6) 0 2 = 2 ∧ readBits (bitsOf 10 0x6) 2 2 ≤ 1 ∧ readBits (bitsOf 10 0x6) 4 5 = 0 ∧ 10 ≤ (bitsOf 10 0x6).length) := by
  decide

theorem witness_ParseReadsTheOtherPackets :
    (5 ≤ (bitsOf 5 0xA).length ∧ readBits (bitsOf 5 0xA) 0 2 = 2 ∧ readBits (bitsOf 5 0xA) 2 2 = 2)
    ∧ (12 + 32 ≤ (bitsOf 44 0xE).length ∧ readBits (bitsOf 44 0xE) 2 2 = 3 ∧ readBits (bitsOf 44 0xE) 4 2 = 0)
    ∧ (18 + 32 + 32 ≤ (bitsOf 82 0x1E).length ∧ readBits (bitsOf 82 0x1E) 2 2 = 3 ∧ readBits (bitsOf 82 0x1E) 4 2 = 1)
    ∧ (18 + 32 + 0 ≤ (bitsOf 50 0x1E).length ∧ readBits (bitsOf 50 0x1E) 4 2 = 1)
    ∧ (2 + 32 ≤ (bitsOf 34 3).length ∧ readBits (bitsOf 34 3) 0 2 = 3) ∧ (66 ≤ (bitsOf 66 1).length ∧ readBits (bitsOf 66 1) 0 2 = 1) := by
  decide

/-- A row with the least bit count that suffices, and a frame that just holds its packet. -/
theorem witness_ReadingARowAnswersItsPacket :
    (Packet.addrOnly 1 1).reservedError = none ∧ minBits 32 true (Packet.addrOnly 1 1) ≤ 5
    ∧ (Packet.timer 0).reservedError = none ∧ minBits 32 false (Packet.timer 0) ≤ 8 * ((7 : BitVec 4).toNat + 2) - 4 := by decide

theorem witness_PlainPacketRoundTrip :
    7 < 8 ∧ (Packet.addrOnly 0xFFFFFEFC 10).reservedError = none ∧ (Packet.addrOnly 0xFFFFFEFC 10).fieldsOk State.reset.xlen true = true
    ∧ Packet.addrOnly 0xFFFFFEFC 10 = (Packet.addrOnly 0xFFFFFEFC 10).canon State.reset.xlen
    ∧ (Packet.syncException 32 3 true 1 2 true 3).fieldsOk State.reset.xlen true = true
    ∧ Packet.syncException 32 3 true 1 2 true 3 = (Packet.syncException 32 3 true 1 2 true 3).canon State.reset.xlen := by decide

theorem witness_PulpPacketRoundTrip :
    (Packet.syncException 32 3 true 1 2 true 3).reservedError = none ∧ (Packet.syncException 32 3 true 1 2 true 3).fieldsOk State.reset.xlen true = true
    ∧ Packet.syncException 32 3 true 1 2 true 3 = (Packet.syncException 32 3 true 1 2 true 3).canon State.reset.xlen
    ∧ State.reset.params.pulpTval = false := by decide

/-- A packet that is not sign-consistent, written, read and written again, in both framings. -/
theorem witness_SerializingAParsedPacketAgain :
    (after (.opSerPlain (Packet.addrOnly 0x18 4) 7 0x55) State.reset).ports.ser = some ⟨[0x55, 0x45], some 8⟩
    ∧ (after (.opDesPlain [0x55, 0x45] 7 8) State.reset).ports.des = some ⟨Packet.addrOnly 0xFFFFFFF8 4, 1, some 7⟩
    ∧ (after (.opSerPulp (Packet.addrOnly 0x18 4)) State.reset).ports.ser = some ⟨[0xA0, 0xF8], none⟩
    ∧ (after (.opDesPulp [0xA0, 0xF8]) State.reset).ports.des = some ⟨Packet.addrOnly 0xFFFFFFF8 8, 2, none⟩ := by decide

theorem witness_SebStatements : 1 ≤ 1 ∧ 1 < 2 ^ 1 ∧ 1 ≤ 32 ∧ 0xFFFF0000 < 2 ^ 32 ∧ seb 32 0xFFFF0000 = 16 ∧ 1 ≤ 16 ∧ 16 < 32 - 16 + 1 := by decide

theorem witness_KeptBitsGiveTheValueBack : (0xFFFFFEFC : Word).toNat < 2 ^ xlen false ∧ (0xFFFFFFFFFFFFFEFC : Word).toNat < 2 ^ xlen true := by decide

theorem witness_BranchOutcomeIsRecordedAtTheCount :
    (slotAt 0x100C).iaddr.toNat < 2 ^ xlen false ∧ (⟨0, 30⟩ : BranchMap).cnt.toNat ≤ 30
    ∧ notTaken 32 { slotAt 0x1008 with isBranch := true } (slotAt 0x100C) = true
    ∧ notTaken 32 { slotAt 0x1008 with isBranch := true } (slotAt 0x1004) = false := by decide

theorem witness_FailedOperationKeepsTheState :
    exec (.opInject Packet.reservedMsg0) midTrace = .next (after (.opInject Packet.reservedMsg0) midTrace)
    ∧ (after (.opInject Packet.reservedMsg0) midTrace).ports.result ≠ .noError := ⟨rfl, by decide⟩

theorem witness_OutputQueuesOnlyGrow :
    exec .opEnd midTrace = .next (after .opEnd midTrace) ∧ queued .opEnd midTrace ≠ [] := ⟨rfl, by decide⟩

theorem witness_PureOperationsChangeOnlyPorts :
    exec (.opDesPulp []) midTrace = .next (after (.opDesPulp []) midTrace) ∧ Instr.opDesPulp [] ≠ .opReset
    ∧ (∀ c0 c1, Instr.opDesPulp [] ≠ .opConfig c0 c1) ∧ (∀ r, Instr.opDesPulp [] ≠ .opStep r) ∧ Instr.opDesPulp [] ≠ .opEnd
    ∧ (∀ p, Instr.opDesPulp [] ≠ .opInject p) ∧ Instr.opDesPulp [] ≠ .opClearStatus :=
  ⟨rfl, by simp, by simp, by simp, by simp, by simp, by simp⟩

theorem witness_ConfigurationChangesOnlyByConfig :
    exec .opEnd midTrace = .next (after .opEnd midTrace) ∧ Instr.opEnd ≠ .opReset ∧ (∀ c0 c1, Instr.opEnd ≠ .opConfig c0 c1) :=
  ⟨rfl, by simp, by simp⟩

theorem witness_ResyncMaxAndStatisticsNeverAct :
    exec .opRead midTrace = .next (after .opRead midTrace)
    ∧ exec .opRead { midTrace with cfg1 := 5, stats := { Stats.zero with instrs := 9 } }
      = .next (after .opRead { midTrace with cfg1 := 5, stats := { Stats.zero with instrs := 9 } }) := ⟨rfl, rfl⟩

theorem witness_EveryStepKeepsTheInvariant :
    ({ midTrace with opIn := [.op .opEnd] } : State).Inv
    ∧ step { midTrace with opIn := [.op .opEnd] } = .next (after .opEnd midTrace)
    ∧ (after .opEnd midTrace).packetOut = [Packet.addrOnly 0xFFFFFFF8 4] :=
  ⟨midTrace_inv_opIn _, rfl, by decide⟩

theorem witness_StepRunsTheDecodedRequest :
    midTrace.opIn = [] ∧ decode (Cfg0.arch64 midTrace.cfg0) midTrace.params.pulpTval (.op .opEnd) = .ok .opEnd
    ∧ decode (Cfg0.arch64 midTrace.cfg0) midTrace.params.pulpTval (.pulp []) = .error .badPacket := ⟨rfl, rfl, rfl⟩

theorem witness_DecodeOfEncodeIsTheInstruction :
    Instr.wf false false (.addrOnlyPlain (.read 7 5) 0xFFFFFFFF 1) = true ∧ Instr.wf true false (.addrOnlyPulp (.read 7) 0xDEADBEEF 64) = true
    ∧ Instr.wf false false .opEnd = true := by decide

/-! ## The notations of the spec -/

/-- The example line of 30_encoding.md R115, with a key left out. -/
theorem test_stimulus_line :
    Record.ofStimulus [(.valid, 1), (.exception, 0), (.cause, 0), (.tval, 0), (.priv, 3), (.compressed, 0), (.addr, 0x100),
      (.instr, 0x0080006f)] = ⟨true, false, false, 0, 0, 3, 0x100, 0x0080006f, false⟩ := by decide

/-- Examples of 30_encoding.md R117: a BRANCH_DIFF without its `map_bits`, and a full map without an address. -/
theorem test_branch_notation :
    Packet.branchNote 32 1 3 0x4 none 0xFFFFF000 (some 13) = Packet.branchDiff 3 0x4 9 0xFFFFF000 13
    ∧ Packet.branchNote 32 0 0 0x7FFFFFFF (some 1) 0 none = Packet.branchFullNoaddr 0x7FFFFFFF 1 := by decide

end Sys2Proof.Tests
end

/-! # The answers of operations

What an operation answers: OK with STATUS as it was, or an error that STATUS takes (60_exceptions.md R301, R304,
R305), for each shared operation and then for every instruction. -/

namespace Sys2Proof.Machine

/-! ### The codes of the codec -/

/-- The codes that the serializer, the deserializer and the emission of packets answer (60_exceptions.md R302). The
fourth code, `bad_instr`, is OP_STEP's own. -/
def CodecCode (e : ErrCode) : Prop := e = .invalid ∨ e = .badPacket ∨ e = .unimplemented

theorem codecCode_invalid : CodecCode .invalid := .inl rfl
theorem codecCode_badPacket : CodecCode .badPacket := .inr (.inl rfl)
theorem codecCode_unimplemented : CodecCode .unimplemented := .inr (.inr rfl)

theorem CodecCode.ne_noError {e : ErrCode} (h : CodecCode e) : e ≠ .noError := by
  rcases h with rfl | rfl | rfl <;> simp

theorem CodecCode.ne_badInstr {e : ErrCode} (h : CodecCode e) : e ≠ .badInstr := by
  rcases h with rfl | rfl | rfl <;> simp

theorem reservedError_code {p : Packet} {e : ErrCode} (h : p.reservedError = some e) : CodecCode e := by
  unfold Packet.reservedError at h
  split at h <;> cases h
  · exact codecCode_badPacket
  · exact codecCode_unimplemented
  · exact codecCode_badPacket

theorem validate_code {w : Nat} {p : Packet} {e : ErrCode} (h : validate w p = some e) : CodecCode e :=
  .inr (validate_codes w p e h)

theorem serPlain_code {w : Nat} {p : Packet} {align : Nat} {carry : Byte} {e : ErrCode}
    (h : serPlain w p align carry = .error e) : CodecCode e := by
  rcases serPlain_cases w p align carry with ⟨-, h'⟩ | ⟨-, e', hv, h'⟩ | ⟨-, -, h'⟩ <;> cases h'.symm.trans h
  · exact codecCode_invalid
  · exact validate_code hv

theorem serPulp_code {w : Nat} {tv : Bool} {p : Packet} {e : ErrCode} (h : serPulp w tv p = .error e) : CodecCode e := by
  rcases serPulp_cases w tv p with ⟨e', hv, h'⟩ | ⟨-, -, h'⟩ | ⟨-, -, h'⟩ <;> cases h'.symm.trans h
  · exact validate_code hv
  · exact codecCode_badPacket

theorem writePacket_code {s : State} {p : Packet} {e : ErrCode} (h : writePacket s p = .error e) : CodecCode e := by
  unfold writePacket at h
  split at h
  · split at h <;> cases h
    exact serPulp_code ‹_›
  · rcases writePlain_cases s.xlen p s.wrAlign s.wrCarry with ⟨e', hv, h'⟩ | ⟨-, wr, h', -⟩ <;> cases h'.symm.trans h
    exact validate_code hv

/-! ### The deserializer's codes: PARSE itself fails only on packets that are too short -/

theorem require_error {α : Type} {n k : Nat} {r : Except ErrCode α} {e : ErrCode} (h : require n k r = .error e)
    (hr : r = .error e → e = .badPacket) : e = .badPacket := by
  unfold require at h
  split at h
  · cases h; rfl
  · exact hr h

theorem parseBranch_error {w : Nat} {f : BitVec 2} {s : Bits} {e : ErrCode} (h : parseBranch w f s = .error e) :
    e = .badPacket := by
  refine require_error h fun h => ?_
  dsimp only at h
  split at h <;> exact require_error h nofun

theorem parseSync_error {w : Nat} {tv : Bool} {s : Bits} {e : ErrCode} (h : parseSync w tv s = .error e) :
    e = .badPacket := by
  refine require_error h fun h => ?_
  dsimp only at h
  split at h
  · exact require_error h nofun
  · exact require_error h nofun
  · cases h
  · cases h

theorem parse_error {w : Nat} {tv : Bool} {s : Bits} {e : ErrCode} (h : parse w tv s = .error e) : e = .badPacket := by
  refine require_error h fun h => ?_
  split at h
  · cases h
  · exact require_error h nofun
  · exact require_error h nofun
  · refine require_error h fun h => ?_
    split at h
    · exact parseBranch_error h
    · exact parseBranch_error h
    · exact require_error h nofun
    · exact parseSync_error h

theorem deserialize_code {w : Nat} {tv : Bool} {s : Bits} {e : ErrCode} (h : deserialize w tv s = .error e) :
    CodecCode e := by
  unfold deserialize at h
  split at h
  · cases h; exact .inr (.inl (parse_error ‹_›))
  · split at h <;> cases h
    exact reservedError_code ‹_›

theorem plainBits_code {bytes : List Byte} {align n : Nat} {e : ErrCode} (h : plainBits bytes align n = .error e) :
    CodecCode e := by
  rcases plainBits_cases bytes align n with ⟨-, h'⟩ | ⟨-, -, h'⟩ | ⟨-, -, h'⟩ <;> cases h'.symm.trans h
  · exact codecCode_invalid
  · exact codecCode_badPacket

theorem frameBits_code {bytes : List Byte} {e : ErrCode} (h : frameBits bytes = .error e) : CodecCode e := by
  cases bytes with
  | nil => cases h; exact codecCode_badPacket
  | cons b t =>
    simp only [frameBits] at h
    split at h <;> cases h
    exact codecCode_badPacket

theorem readPacket_code {w : Nat} {tv : Bool} {n : Nat} {p : Packet} {e : ErrCode}
    (h : readPacket w tv n p = .error e) : CodecCode e := by
  unfold readPacket at h
  split at h
  · cases h; exact codecCode_badPacket
  · split at h <;> cases h
    exact reservedError_code ‹_›

/-! ### What a shared operation answers -/

/-- How an operation that began in `s` ends in `t`: with OK and STATUS as it was, or with a code of the codec, which
STATUS takes, and all else but the statistics as it was (60_exceptions.md R304, R305). -/
inductive Answers (s : State) : State → Prop
  | ok {t : State} (result : t.ports.result = .noError) (status : t.status = s.status) : Answers s t
  | error {e : ErrCode} (code : CodecCode e) (stats : Stats) : Answers s (s.raise e stats)

theorem Answers.fail {s : State} {e : ErrCode} (h : CodecCode e) : Answers s (s.fail e) := .error h s.stats

theorem serPlainOp_answers (p : Packet) (align : Nat) (carry : Byte) (s : State) :
    Answers s (serPlainOp p align carry s) := by
  rcases serPlainOp_cases p align carry s with ⟨e, he, h⟩ | ⟨b, n, -, h⟩ <;> rw [h]
  · exact .fail (serPlain_code he)
  · exact .ok rfl rfl

theorem serPulpOp_answers (p : Packet) (s : State) : Answers s (serPulpOp p s) := by
  rcases serPulpOp_cases p s with ⟨e, he, h⟩ | ⟨b, -, h⟩ <;> rw [h]
  · exact .fail (serPulp_code he)
  · exact .ok rfl rfl

theorem desPlainOp_answers (bytes : List Byte) (align n : Nat) (s : State) :
    Answers s (desPlainOp bytes align n s) := by
  unfold desPlainOp
  split
  · exact .fail (plainBits_code ‹_›)
  · split
    · exact .fail (deserialize_code ‹_›)
    · exact .ok rfl rfl

theorem desPulpOp_answers (bytes : List Byte) (s : State) : Answers s (desPulpOp bytes s) := by
  unfold desPulpOp
  split
  · exact .fail (frameBits_code ‹_›)
  · split
    · exact .fail (deserialize_code ‹_›)
    · exact .ok rfl rfl

theorem usePlain_answers (u : PlainUse) (p : Packet) (s : State) : Answers s (usePlain u p s) := by
  cases u with
  | write align carry => exact serPlainOp_answers p align carry s
  | read align n =>
    simp only [usePlain]
    split
    · exact .fail codecCode_invalid
    · split
      · exact .fail (readPacket_code ‹_›)
      · exact .ok rfl rfl

theorem usePulp_answers (u : PulpUse) (p : Packet) (s : State) : Answers s (usePulp u p s) := by
  cases u with
  | write => exact serPulpOp_answers p s
  | read len =>
    simp only [usePulp]
    split
    · exact .fail (readPacket_code ‹_›)
    · exact .ok rfl rfl

/-- Emission by an operation whose work so far, and whose completion, left STATUS alone. -/
theorem emitPacket_answers {before s : State} {finish : State → State} (p : Packet) (hs : s.status = before.status)
    (hf : ∀ t, (finish t).status = t.status) : Answers before (emitPacket before s p finish) := by
  rcases emitPacket_cases before s p finish with ⟨e, he, h⟩ | ⟨wr, -, h⟩ <;> rw [h]
  · exact .error (writePacket_code he) _
  · exact .ok rfl (by simp [hf, hs])

/-- PROCESS never ends with an error, row 8 being inert (42_encoder_fsm.md R178), and leaves STATUS alone. -/
theorem process_ok (s : State) : ∃ t p, s.process = .ok (t, p) ∧ t.status = s.status := by
  rcases process_cases s with ⟨-, h⟩ | ⟨-, -, h⟩ | ⟨-, row, hrow, -, h⟩
  · exact ⟨_, _, h, rfl⟩
  · exact ⟨_, _, h, by simp⟩
  · obtain ⟨t, p, hact, ht⟩ := rowAction_cases s.recordBranch s.syncBranchBit row hrow
    refine ⟨t, some p, h.trans hact, ?_⟩
    rcases ht with ⟨-, rfl, -⟩ | ⟨-, rfl, -⟩ | ⟨-, rfl, -⟩ | ⟨-, rfl, -⟩ | ⟨-, rfl, -⟩ <;> simp

theorem processAndEmit_answers {before s : State} {finish : State → State} (hs : s.status = before.status)
    (hf : ∀ t, (finish t).status = t.status) : Answers before (processAndEmit before s finish) := by
  obtain ⟨t, p, h, ht⟩ := process_ok s
  unfold processAndEmit
  rw [h]
  cases p with
  | none => exact .ok rfl (by simp [hf, ht, hs])
  | some p => exact emitPacket_answers p (ht.trans hs) hf

/-! ### What an instruction answers -/

/-- A plain packet row means the use of its packet in the plain framing. -/
theorem exec_of_form_plain {i : Instr} {s : State} {k : PacketKind} {u : PlainUse} {p : Packet}
    (h : i.form s.xlen = .plain k u p) : exec i s = .next (usePlain u p s) := by
  cases i <;> cases h <;> rfl

/-- A PULP packet row means the use of its packet in the PULP framing. -/
theorem exec_of_form_pulp {i : Instr} {s : State} {k : PacketKind} {u : PulpUse} {p : Packet}
    (h : i.form s.xlen = .pulp k u p) : exec i s = .next (usePulp u p s) := by
  cases i <;> cases h <;> rfl

/-- The operations that set STATUS to NONE (10_state.md R33). -/
def ClearsStatus (i : Instr) : Prop := i = .opReset ∨ i = .opClearStatus ∨ ∃ c0 c1, i = .opConfig c0 c1

/-- How an instruction `i` run in `s` ends in `t`: as a shared operation does, or as OP_STEP with an unsupported record
(42_encoder_fsm.md R173), or with STATUS cleared. -/
inductive ExecAnswers (i : Instr) (s : State) : State → Prop
  | codec {t : State} (answers : Answers s t) : ExecAnswers i s t
  | unsupported (r : Record) (step : i = .opStep r) : ExecAnswers i s (s.fail .badInstr)
  | cleared {t : State} (clears : ClearsStatus i) (result : t.ports.result = .noError) (status : t.status = .noError) :
      ExecAnswers i s t

theorem execOpStep_answers (r : Record) (s : State) :
    ∃ t, execOpStep r s = .next t ∧ ExecAnswers (.opStep r) s t := by
  refine ⟨_, rfl, ?_⟩
  split
  · split
    · exact .unsupported r rfl
    · exact .codec (processAndEmit_answers (State.shiftRecord_status s r) fun _ => rfl)
  · exact .codec (.ok rfl rfl)

theorem execOpInject_answers (p : Packet) (s : State) : ∃ t, execOpInject p s = .next t ∧ Answers s t := by
  refine ⟨_, rfl, ?_⟩
  split
  · exact emitPacket_answers _ rfl fun _ => rfl
  · exact .fail codecCode_invalid

theorem exec_host_answers {i : Instr} {s : State} (h : i.form s.xlen = .host) :
    ∃ t, exec i s = .next t ∧ ExecAnswers i s t := by
  cases i with
  | opReset => exact ⟨_, rfl, .cleared (.inl rfl) rfl rfl⟩
  | opConfig c0 c1 => exact ⟨_, rfl, .cleared (.inr (.inr ⟨c0, c1, rfl⟩)) rfl rfl⟩
  | opStep r => exact execOpStep_answers r s
  | opEnd =>
    exact ⟨_, rfl, .codec (processAndEmit_answers (State.shiftIn_status s Slot.empty) State.flushWriter_status)⟩
  | opInject p =>
    obtain ⟨t, ht, ha⟩ := execOpInject_answers p s
    exact ⟨t, ht, .codec ha⟩
  | opClearStatus => exact ⟨_, rfl, .cleared (.inr (.inl rfl)) rfl rfl⟩
  | opRead => exact ⟨_, rfl, .codec (.ok rfl rfl)⟩
  | opSerPlain p align carry => exact ⟨_, rfl, .codec (serPlainOp_answers p align carry s)⟩
  | opSerPulp p => exact ⟨_, rfl, .codec (serPulpOp_answers p s)⟩
  | opDesPlain bytes align n => exact ⟨_, rfl, .codec (desPlainOp_answers bytes align n s)⟩
  | opDesPulp bytes => exact ⟨_, rfl, .codec (desPulpOp_answers bytes s)⟩
  | _ => cases h

/-- Every instruction answers a next state, in one of the ways that `ExecAnswers` lists (00_scope.md R8). -/
theorem exec_answers (i : Instr) (s : State) : ∃ t, exec i s = .next t ∧ ExecAnswers i s t := by
  cases h : i.form s.xlen with
  | plain k u p => exact ⟨_, exec_of_form_plain h, .codec (usePlain_answers u p s)⟩
  | pulp k u p => exact ⟨_, exec_of_form_pulp h, .codec (usePulp_answers u p s)⟩
  | host => exact exec_host_answers h

/-- Settles O49: by the four ways in which an instruction can end. -/
theorem everyInstructionAnswersOkOrOneOfFourCodes : Obligations.EveryInstructionAnswersOkOrOneOfFourCodes := by
  intro i s
  obtain ⟨t, hexec, ha⟩ := exec_answers i s
  refine ⟨t, hexec, ?_⟩
  cases ha with
  | codec ha =>
    cases ha with
    | ok result status => simp [result, status]
    | error code stats =>
      refine ⟨?_, fun h => absurd h code.ne_badInstr, fun _ => rfl, fun h => absurd h code.ne_noError⟩
      rcases code with rfl | rfl | rfl <;> simp
  | unsupported r step => simp [step]
  | cleared clears result status =>
    exact ⟨.inl result, by simp [result], by simp [result], fun _ => .inr ⟨status, clears⟩⟩

end Sys2Proof.Machine

/-! # What an operation does to the state

Every instruction ends in one of three ways: it keeps the block's state, it configures the block, or it prepares a
working state and completes it by an emission. The statements about the state as a whole follow from this list. -/

namespace Sys2Proof.Machine

/-! ### PROCESS -/

/-- What PROCESS writes (42_encoder_fsm.md R179 to R200): `ees` of `this`, only after a trap; the accumulator, which it
leaves full in no case but that of an empty slot; and `last_iaddr`. -/
inductive Processed (s : State) : State → Prop
  | mk (e : Bool) (m : BranchMap) (a : Word)
      (ees : e = s.thisSlot.ees ∨ (s.thisSlot.q = true ∧ s.lastSlot.exception = true))
      (map : m = BranchMap.empty ∨ m = s.map ∨ (m = s.recordBranch.map ∧ m.full = false))
      (lastIaddr : a = s.lastIaddr ∨ a = s.thisSlot.iaddr) :
      Processed s { s with thisSlot := { s.thisSlot with ees := e }, map := m, lastIaddr := a }

theorem State.recordBranch_eq (s : State) : s.recordBranch = { s with map := s.recordBranch.map } := by
  unfold State.recordBranch; split <;> rfl

/-- Row 7 takes a full map, so that none is left when no row acts (42_encoder_fsm.md R190, R192). -/
theorem map_not_full_of_selectRow {s : State} (h : selectRow s = none) : s.map.full = false := by
  by_contra hfull
  have h7 : s.trigger7 = true := by simpa [State.trigger7] using hfull
  unfold selectRow at h
  rw [h7] at h
  repeat' split at h
  all_goals simp_all

theorem lastSlot_exception_of_selectRow {s : State} (h : selectRow s = some .row1) : s.lastSlot.exception = true := by
  unfold selectRow at h
  split at h
  · assumption
  · repeat' split at h
    all_goals cases h

theorem process_processed {s t : State} {pk : Option Packet} (h : s.process = .ok (t, pk)) : Processed s t := by
  rcases process_cases s with ⟨-, h'⟩ | ⟨-, hsel, h'⟩ | ⟨hq, row, hrow, hsel, h'⟩
  · cases h'.symm.trans h
    exact .mk _ _ _ (.inl rfl) (.inr (.inl rfl)) (.inl rfl)
  · cases h'.symm.trans h
    rw [State.recordBranch_eq]
    exact .mk _ _ _ (.inl rfl) (.inr (.inr ⟨rfl, map_not_full_of_selectRow hsel⟩)) (.inl rfl)
  · obtain ⟨u, p, hact, hu⟩ := rowAction_cases s.recordBranch s.syncBranchBit row hrow
    cases (h'.trans hact).symm.trans h
    rcases hu with ⟨hrow, rfl, -⟩ | ⟨-, rfl, -⟩ | ⟨-, rfl, -⟩ | ⟨-, rfl, -⟩ | ⟨-, rfl, -⟩
    · have htrap := lastSlot_exception_of_selectRow (hrow ▸ hsel)
      rw [State.recordBranch_lastSlot] at htrap
      rw [State.recordBranch_eq]
      exact .mk true _ _ (.inr ⟨hq, htrap⟩) (.inl rfl) (.inr rfl)
    · rw [State.recordBranch_eq]
      exact .mk _ _ _ (.inl rfl) (.inl rfl) (.inr rfl)
    · rw [State.recordBranch_eq]
      exact .mk _ _ _ (.inl rfl) (.inl rfl) (by split <;> simp)
    · rw [State.recordBranch_eq]
      exact .mk _ _ _ (.inl rfl) (.inl rfl) (by split <;> simp)
    · rw [State.recordBranch_eq]
      exact .mk _ _ _ (.inl rfl) (.inl rfl) (.inl rfl)

/-! ### Preparation and completion -/

/-- The state in which the stream writer's answer for a packet is stored (42_encoder_fsm.md R203). -/
def State.emitted (s : State) (p : Packet) (wr : Written) : State :=
  { s with
    stats := s.stats.countPacket s.params s.cfg0 p, byteOut := s.byteOut ++ wr.bytes
    wrAlign := wr.align, wrCarry := wr.carry, packetOut := s.packetOut ++ [p] }

/-- What an encode operation or OP_INJECT, begun in `s`, has ready for emission: its working state, the packet to be
emitted if there is one, and its completion (42_encoder_fsm.md R175 to R177). -/
inductive Prepares (i : Instr) (s : State) : State → Option Packet → (State → State) → Prop
  | step {r : Record} {w : State} {pk : Option Packet} (instr : i = .opStep r) (valid : r.valid = true)
      (supported : (s.classOf r).isUnsupported = false) (process : (s.shiftRecord r).process = .ok (w, pk)) :
      Prepares i s w pk id
  | finish {w : State} {pk : Option Packet} (instr : i = .opEnd)
      (process : (s.shiftIn Slot.empty).process = .ok (w, pk)) : Prepares i s w pk State.flushWriter
  | inject {p : Packet} (instr : i = .opInject p) (kind : p.msgType = 1 ∨ p.msgType = 3) :
      Prepares i s s (some (p.canon s.xlen)) id

/-- How an operation begun in `s` ends from its working state `w`: with no packet, with the writer's error, or with the
packet emitted (42_encoder_fsm.md R203, 60_exceptions.md R305, R314). -/
inductive Completes (s w : State) (finish : State → State) : Option Packet → State → Prop
  | silent : Completes s w finish none (finish w).done
  | failed {p : Packet} {e : ErrCode} (error : writePacket w p = .error e) :
      Completes s w finish (some p) (s.raise e (w.stats.countPacket w.params w.cfg0 p))
  | emitted {p : Packet} {wr : Written} (written : writePacket w p = .ok wr) :
      Completes s w finish (some p) (finish (w.emitted p wr)).done

theorem emitPacket_completes (s w : State) (p : Packet) (finish : State → State) :
    Completes s w finish (some p) (emitPacket s w p finish) := by
  rcases emitPacket_cases s w p finish with ⟨e, he, h⟩ | ⟨wr, hwr, h⟩ <;> rw [h]
  · exact .failed he
  · exact .emitted hwr

theorem processAndEmit_completes {s v w : State} {pk : Option Packet} (finish : State → State)
    (h : v.process = .ok (w, pk)) : Completes s w finish pk (processAndEmit s v finish) := by
  unfold processAndEmit
  rw [h]
  cases pk with
  | none => exact .silent
  | some p => exact emitPacket_completes s w p finish

namespace Prepares

variable {i : Instr} {s w : State} {pk : Option Packet} {finish : State → State}

theorem instr_cases (h : Prepares i s w pk finish) : (∃ r, i = .opStep r) ∨ i = .opEnd ∨ ∃ p, i = .opInject p := by
  cases h with
  | step instr _ _ _ => exact .inl ⟨_, instr⟩
  | finish instr _ => exact .inr (.inl instr)
  | inject instr _ => exact .inr (.inr ⟨_, instr⟩)

/-- The working state differs from the first one in the window, the accumulator, `last_iaddr` and the statistics. -/
theorem frame (h : Prepares i s w pk finish) : ∃ (last this next : Slot) (m : BranchMap) (a : Word) (x : Stats),
    w = { s with lastSlot := last, thisSlot := this, nextSlot := next, map := m, lastIaddr := a, stats := x } := by
  cases h with
  | step _ _ _ process => cases process_processed process; exact ⟨_, _, _, _, _, _, rfl⟩
  | finish _ process => cases process_processed process; exact ⟨_, _, _, _, _, _, rfl⟩
  | inject => exact ⟨_, _, _, _, _, _, rfl⟩

/-- Nothing is counted before emission but the record of OP_STEP (10_state.md R34). -/
theorem stats (h : Prepares i s w pk finish) : ∃ k, w.stats = { s.stats with instrs := k }
    ∧ ((∃ r, i = .opStep r) → k = bump s.params.statw s.stats.instrs 1) ∧ ((∀ r, i ≠ .opStep r) → k = s.stats.instrs) := by
  cases h with
  | step instr _ _ process =>
    cases process_processed process
    exact ⟨_, rfl, fun _ => rfl, fun h => absurd instr (h _)⟩
  | finish instr process =>
    cases process_processed process
    exact ⟨_, rfl, by simp [instr], fun _ => rfl⟩
  | inject instr _ => exact ⟨_, rfl, by simp [instr], fun _ => rfl⟩

/-- Completion writes no more than the stream writer's state and the byte queue (20_memory.md R77). -/
theorem finish_frame (h : Prepares i s w pk finish) (v : State) : ∃ (bs : List Byte) (al : BitVec 3) (c : BitVec 7),
    finish v = { v with byteOut := v.byteOut ++ bs, wrAlign := al, wrCarry := c } := by
  have hid : ∃ (bs : List Byte) (al : BitVec 3) (c : BitVec 7),
      v = { v with byteOut := v.byteOut ++ bs, wrAlign := al, wrCarry := c } :=
    ⟨[], v.wrAlign, v.wrCarry, by rw [List.append_nil]⟩
  cases h with
  | step => exact hid
  | finish =>
    unfold State.flushWriter
    split
    · exact hid
    · exact ⟨_, _, _, rfl⟩
  | inject => exact hid

end Prepares

/-! ### The effect of an instruction -/

/-- The three ways in which an instruction ends. -/
inductive Effect (i : Instr) (s : State) : State → Prop
  | kept (e : ErrCode) (q : Ports) : Effect i s { s with status := e, ports := q }
  | configured {c0 c1 : BitVec 32} (instr : i = .opReset ∨ ∃ c, i = .opConfig c c1)
      (reserved : ∀ k, 7 ≤ k → c0.getLsbD k = false) : Effect i s (s.configure c0 c1).done
  | worked {w t : State} {pk : Option Packet} {finish : State → State} (prepares : Prepares i s w pk finish)
      (completes : Completes s w finish pk t) : Effect i s t

/-- The reserved bits of CFG0 are written as 0 (10_state.md R21). -/
theorem stored_reserved (c : BitVec 32) (k : Nat) (hk : 7 ≤ k) : (Cfg0.stored c).getLsbD k = false := by
  have h7F : (0x7F#32).getLsbD k = false := by
    rw [BitVec.getLsbD, BitVec.toNat_ofNat]
    exact Nat.testBit_lt_two_pow (Nat.lt_of_lt_of_le (by decide) (Nat.pow_le_pow_right (by decide : 0 < 2) hk))
  rw [Cfg0.stored, BitVec.getLsbD_and, h7F, Bool.and_false]

/-- A packet row, OP_SER and OP_DES end with an error, a serializer answer or a deserializer answer. -/
theorem Effect.of_codec {i : Instr} {s t : State}
    (h : (∃ e, t = s.fail e) ∨ (∃ o, t = s.doneSer o) ∨ (∃ o, t = s.doneDes o)) : Effect i s t := by
  rcases h with ⟨e, rfl⟩ | ⟨o, rfl⟩ | ⟨o, rfl⟩
  · exact .kept e _
  · exact .kept s.status _
  · exact .kept s.status _

theorem execOpStep_effect {r : Record} {s t : State} (h : execOpStep r s = .next t) : Effect (.opStep r) s t := by
  cases h
  split
  next hvalid =>
    split
    next => exact .kept .badInstr _
    next hsup =>
      obtain ⟨w, pk, hp, -⟩ := process_ok (s.shiftRecord r)
      exact .worked (.step rfl hvalid (by simpa using hsup) hp) (processAndEmit_completes id hp)
  next => exact .kept s.status _

theorem execOpEnd_effect {s t : State} (h : execOpEnd s = .next t) : Effect .opEnd s t := by
  cases h
  obtain ⟨w, pk, hp, -⟩ := process_ok (s.shiftIn Slot.empty)
  exact .worked (.finish rfl hp) (processAndEmit_completes State.flushWriter hp)

theorem execOpInject_effect {p : Packet} {s t : State} (h : execOpInject p s = .next t) : Effect (.opInject p) s t := by
  cases h
  split
  next hkind => exact .worked (.inject rfl hkind) (emitPacket_completes s s _ id)
  next => exact .kept .invalid _

theorem exec_host_effect {i : Instr} {s t : State} (hi : i.form s.xlen = .host) (h : exec i s = .next t) :
    Effect i s t := by
  cases i with
  | opReset => cases h; exact .configured (.inl rfl) (by simp)
  | opConfig c0 c1 => cases h; exact .configured (.inr ⟨c0, rfl⟩) (stored_reserved c0)
  | opStep r => exact execOpStep_effect h
  | opEnd => exact execOpEnd_effect h
  | opInject p => exact execOpInject_effect h
  | opClearStatus => cases h; exact .kept .noError _
  | opRead => cases h; exact .kept s.status _
  | opSerPlain p align carry => cases h; exact .of_codec (usePlain_cases (.write align carry) p s)
  | opSerPulp p => cases h; exact .of_codec (usePulp_cases .write p s)
  | opDesPlain bytes align n =>
    cases h
    rcases desPlainOp_cases bytes align n s with ⟨e, h⟩ | ⟨p, h⟩
    · exact .of_codec (.inl ⟨e, h⟩)
    · exact .of_codec (.inr (.inr ⟨_, h⟩))
  | opDesPulp bytes =>
    cases h
    rcases desPulpOp_cases bytes s with ⟨e, h⟩ | ⟨len, p, h⟩
    · exact .of_codec (.inl ⟨e, h⟩)
    · exact .of_codec (.inr (.inr ⟨_, h⟩))
  | _ => cases hi

theorem exec_effect {i : Instr} {s t : State} (h : exec i s = .next t) : Effect i s t := by
  cases hi : i.form s.xlen with
  | plain k u p => cases (exec_of_form_plain hi).symm.trans h; exact .of_codec (usePlain_cases u p s)
  | pulp k u p => cases (exec_of_form_pulp hi).symm.trans h; exact .of_codec (usePulp_cases u p s)
  | host => exact exec_host_effect hi h

/-- An operation that queued a packet has prepared and emitted that packet. -/
theorem exec_emitted {i : Instr} {s t : State} {p : Packet} (h : exec i s = .next t)
    (hq : t.packetOut = s.packetOut ++ [p]) :
    ∃ (w : State) (wr : Written) (finish : State → State),
      Prepares i s w (some p) finish ∧ writePacket w p = .ok wr ∧ t = (finish (w.emitted p wr)).done := by
  cases exec_effect h with
  | kept e q => simp at hq
  | configured => simp at hq
  | @worked w t pk finish prepares completes =>
    have hw : w.packetOut = s.packetOut := by obtain ⟨_, _, _, _, _, _, rfl⟩ := prepares.frame; rfl
    cases completes with
    | silent =>
      obtain ⟨_, _, _, hf⟩ := prepares.finish_frame w
      simp [hf, hw] at hq
    | failed => simp at hq
    | @emitted p' wr written =>
      obtain ⟨_, _, _, hf⟩ := prepares.finish_frame (w.emitted p' wr)
      rw [State.done_packetOut, hf] at hq
      obtain rfl : p' = p := by simpa [State.emitted, hw] using hq
      exact ⟨w, wr, finish, prepares, written, rfl⟩

end Sys2Proof.Machine

/-! # The invariant

Each operation on the state keeps the invariant, and so does every instruction and every step. -/

namespace Sys2Proof.Machine

/-! ### The invariant: the parts of the state -/

theorem Slot.inv_empty (w : Nat) : Slot.empty.Inv w := ⟨fun _ => rfl, Nat.two_pow_pos w, Nat.two_pow_pos w⟩

theorem toNat_ofNat_mod_lt (n w v : Nat) : (BitVec.ofNat n (v % 2 ^ w)).toNat < 2 ^ w := by
  rw [BitVec.toNat_ofNat]
  exact Nat.lt_of_le_of_lt (Nat.mod_le _ _) (Nat.mod_lt _ (Nat.two_pow_pos w))

theorem slotOf_inv (w : Nat) (classes : Classes) (r : Record) (prev : Slot) : (slotOf w classes r prev).Inv w :=
  ⟨nofun, toNat_ofNat_mod_lt 64 w r.iaddr, toNat_ofNat_mod_lt 64 w r.tval⟩

/-- The flag compares the record with the one before it (10_state.md R26). -/
theorem changesFrom_slotOf (w : Nat) (classes : Classes) (r : Record) (prev : Slot) :
    prev.changesFrom (slotOf w classes r prev) := by
  intro h
  simpa [slotOf] using h

theorem changesFrom_empty (prev : Slot) : prev.changesFrom Slot.empty := nofun

/-- An outcome is written below the new count (40_accumulator.md R133, R137). -/
theorem BranchMap.record_bits_lt {m : BranchMap} (b : Bool) (hcnt : m.cnt.toNat ≤ 30)
    (hbits : m.bits.toNat < 2 ^ m.cnt.toNat) : (m.record b).bits.toNat < 2 ^ (m.record b).cnt.toNat := by
  have hnext : (m.record b).cnt.toNat = m.cnt.toNat + 1 := by
    simp only [BranchMap.record, BitVec.toNat_add]
    exact Nat.mod_eq_of_lt (by simp; omega)
  have hold : m.bits.toNat < 2 ^ (m.cnt.toNat + 1) := Nat.lt_of_lt_of_le hbits (Nat.pow_le_pow_right (by decide) (by omega))
  rw [hnext]
  cases b with
  | false =>
    simp only [BranchMap.record, Bool.false_eq_true, if_false, BitVec.toNat_and]
    exact Nat.lt_of_le_of_lt Nat.and_le_left hold
  | true =>
    have hbit : (1#31 <<< m.cnt.toNat).toNat < 2 ^ (m.cnt.toNat + 1) := by
      rw [BitVec.toNat_shiftLeft, Nat.shiftLeft_eq]
      exact Nat.lt_of_le_of_lt (Nat.mod_le _ _) (by simp [Nat.pow_succ])
    simp only [BranchMap.record, if_true, BitVec.toNat_or]
    exact Nat.or_lt_two_pow hold hbit

theorem recordBranch_map_bits {s : State} (hcnt : s.map.cnt.toNat ≤ 30) (hbits : s.map.bits.toNat < 2 ^ s.map.cnt.toNat) :
    s.recordBranch.map.bits.toNat < 2 ^ s.recordBranch.map.cnt.toNat := by
  rw [State.recordBranch_map]
  split
  · exact BranchMap.record_bits_lt _ hcnt hbits
  · exact hbits

theorem BranchMap.cnt_le_of_not_full {m : BranchMap} (h : m.full = false) : m.cnt.toNat ≤ 30 := by
  have hne : m.cnt.toNat ≠ 31 := fun h31 => by
    have : m.cnt = 31 := BitVec.eq_of_toNat_eq h31
    simp [BranchMap.full, this] at h
  have := m.cnt.isLt
  omega

theorem Stats.inv_zero (n : Nat) : Stats.zero.Inv n := by
  have h := Nat.two_pow_pos n
  refine ⟨h, h, h, h, h, h, h, h, h, h, h, h, rfl, fun c hc => ?_⟩
  rw [List.eq_of_mem_replicate hc]
  exact h

theorem Stats.Inv.countInstr {n : Nat} {t : Stats} (h : t.Inv n) : (t.countInstr n).Inv n :=
  { h with instrs := bump_lt _ _ _ }

theorem Stats.Inv.countKind {n : Nat} {t : Stats} (k : PacketKind) (h : t.Inv n) : (t.countKind n k).Inv n := by
  cases k with
  | branchFull | branchFullNoaddr => exact { h with pktBranchFull := bump_lt _ _ _ }
  | branchDiff | branchDiffNoaddr => exact { h with pktBranchDiff := bump_lt _ _ _ }
  | addrOnly => exact { h with pktAddrOnly := bump_lt _ _ _ }
  | syncStart => exact { h with pktSyncStart := bump_lt _ _ _ }
  | syncException => exact { h with pktSyncException := bump_lt _ _ _ }
  | software => exact { h with pktSoftware := bump_lt _ _ _ }
  | timer => exact { h with pktTimer := bump_lt _ _ _ }
  | syncContext | syncReserved | reservedMsg0 => exact h

theorem Stats.Inv.countPacket {params : Params} {t : Stats} (cfg0 : BitVec 32) (p : Packet) (h : t.Inv params.statw) :
    (t.countPacket params cfg0 p).Inv params.statw := by
  have hk := h.countKind p.kind
  exact { hk with
    payloadBits := bump_lt _ _ _
    pulpBits := bump_lt _ _ _
    addrZero := by simp only [Stats.countPacket]; split; exacts [bump_lt _ _ _, hk.addrZero]
    addrOnes := by simp only [Stats.countPacket]; split; exacts [bump_lt _ _ _, hk.addrOnes]
    buckets := by simp only [Stats.countPacket]; split; exacts [(bumpAt_length _ _ _).trans hk.buckets, hk.buckets]
    sextHist := by simp only [Stats.countPacket]; split; exacts [bumpAt_lt _ _ _ hk.sextHist, hk.sextHist] }

/-! ### The invariant: the stream writer's carry -/

/-- A packed byte is worth no more than the bits it is made of. -/
theorem packBytes_getD_le (n k : Nat) (s : Bits) : ((packBytes n s).getD k 0).toNat ≤ value ((s.drop (8 * k)).take 8) := by
  induction n generalizing k s with
  | zero => simp [packBytes]
  | succ n ih =>
    cases k with
    | zero => simpa [packBytes] using Nat.mod_le _ _
    | succ k => simpa [packBytes, Nat.mul_succ, Nat.add_comm] using ih k (s.drop 8)

/-- The byte in which a bit string ends has no bit above the string's end (20_memory.md R72). -/
theorem toBytes_last_lt (s : Bits) : ((toBytes s).getD (s.length / 8) 0).toNat < 2 ^ (s.length % 8) := by
  have hlen : ((s.drop (8 * (s.length / 8))).take 8).length = s.length % 8 := by
    rw [List.length_take, List.length_drop]; omega
  have hval := value_lt ((s.drop (8 * (s.length / 8))).take 8)
  rw [hlen] at hval
  exact Nat.lt_of_le_of_lt (packBytes_getD_le _ _ _) hval

theorem writePlain_carry {w : Nat} {p : Packet} {align : BitVec 3} {carry : BitVec 7} {wr : Written}
    (h : writePlain w p align carry = .ok wr) : wr.carry.toNat < 2 ^ wr.align.toNat := by
  have hcut (b : Byte) : (b.truncate 7).toNat ≤ b.toNat := by
    rw [BitVec.truncate_eq_setWidth, BitVec.toNat_setWidth]
    exact Nat.mod_le _ _
  unfold writePlain at h
  rcases serPlain_cases w p align.toNat (carry.zeroExtend 8) with ⟨-, h'⟩ | ⟨-, e, -, h'⟩ | ⟨-, hv, h'⟩
  · simp [h'] at h
  · simp [h'] at h
  · have hlen := packetBits_length w p hv
    have hlast := toBytes_last_lt (bitsOf align.toNat (carry.zeroExtend 8).toNat ++ packetBits w true p)
    rw [List.length_append, bitsOf_length, hlen] at hlast
    simp only [h'] at h
    split at h
    · cases h; exact Nat.zero_lt_one
    · cases h
      refine Nat.lt_of_le_of_lt (hcut _) ?_
      rwa [BitVec.toNat_ofNat, Nat.mod_eq_of_lt (show (align.toNat + p.bitLen w) % 8 < 2 ^ 3 by omega)]

/-- The carry after a packet: in the PULP framing the old one, in the plain framing the started byte (20_memory.md R75,
R76). -/
theorem writePacket_carry {s : State} {p : Packet} {wr : Written} (h : writePacket s p = .ok wr) :
    (wr.align = s.wrAlign ∧ wr.carry = s.wrCarry)
    ∨ (Cfg0.pulpFraming s.cfg0 = false ∧ wr.carry.toNat < 2 ^ wr.align.toNat) := by
  unfold writePacket at h
  split at h
  next =>
    split at h <;> cases h
    exact .inl ⟨rfl, rfl⟩
  next hplain => exact .inr ⟨eq_false_of_ne_true hplain, writePlain_carry h⟩

/-! ### The invariant: the operations on the state -/

namespace State.Inv

variable {s : State}

theorem keep (h : s.Inv) (e : ErrCode) (q : Ports) : ({ s with status := e, ports := q } : State).Inv := { h with }

theorem takeRequest (h : s.Inv) (rest : List Request) : ({ s with opIn := rest } : State).Inv := { h with }

theorem done (h : s.Inv) : s.done.Inv := { h with }

theorem raise (h : s.Inv) (e : ErrCode) {t : Stats} (ht : t.Inv s.params.statw) : (s.raise e t).Inv :=
  { h with stats := ht }

theorem configure (s : State) {c0 : BitVec 32} (c1 : BitVec 32) (h : ∀ k, 7 ≤ k → c0.getLsbD k = false) :
    (s.configure c0 c1).Inv where
  cfg0_reserved := h
  lastSlot := Slot.inv_empty _
  thisSlot := Slot.inv_empty _
  nextSlot := Slot.inv_empty _
  this_changes := changesFrom_empty _
  next_changes := changesFrom_empty _
  this_ees := nofun
  next_ees := rfl
  map_cnt := Nat.zero_le _
  map_bits := Nat.zero_lt_one
  lastIaddr_fits := Nat.two_pow_pos _
  resyncCnt := rfl
  resyncPend := rfl
  wrCarry := Nat.zero_lt_one
  pulp_aligned := fun _ => rfl
  stats := Stats.inv_zero _

theorem shiftIn (h : s.Inv) {n : Slot} (hn : n.Inv s.xlen) (hc : s.nextSlot.changesFrom n) (he : n.ees = false) :
    (s.shiftIn n).Inv :=
  { h with
    lastSlot := h.thisSlot
    thisSlot := h.nextSlot
    nextSlot := hn
    this_changes := h.next_changes
    next_changes := hc
    this_ees := fun hees => absurd (h.next_ees.symm.trans hees) (by decide)
    next_ees := he }

theorem shiftRecord (h : s.Inv) (r : Record) : (s.shiftRecord r).Inv :=
  { h.shiftIn (slotOf_inv s.xlen (s.classOf r) r s.nextSlot) (changesFrom_slotOf _ _ _ _) rfl with
    stats := h.stats.countInstr }

/-- PROCESS leaves at most 30 outcomes, since a full map is sent (40_accumulator.md R136). -/
theorem of_processed {t : State} (h : s.Inv) (hp : Processed s t) : t.Inv := by
  cases hp with
  | mk e m a ees map lastIaddr =>
    have hmap : m.cnt.toNat ≤ 30 ∧ m.bits.toNat < 2 ^ m.cnt.toNat := by
      rcases map with rfl | rfl | ⟨rfl, hfull⟩
      · exact ⟨by decide, by decide⟩
      · exact ⟨h.map_cnt, h.map_bits⟩
      · exact ⟨BranchMap.cnt_le_of_not_full hfull, recordBranch_map_bits h.map_cnt h.map_bits⟩
    have hthis : ({ s.thisSlot with ees := e } : Slot).Inv s.xlen :=
      { h.thisSlot with
        empty_of_unqualified := fun hq => by
          rcases ees with rfl | ⟨hq', -⟩
          · exact h.thisSlot.empty_of_unqualified hq
          · exact absurd (hq'.symm.trans hq) (by decide) }
    exact { h with
      thisSlot := hthis
      this_changes := h.this_changes
      next_changes := h.next_changes
      this_ees := fun he => by
        rcases ees with rfl | ⟨-, htrap⟩
        · exact h.this_ees he
        · exact htrap
      map_cnt := hmap.1
      map_bits := hmap.2
      lastIaddr_fits := by
        rcases lastIaddr with rfl | rfl
        · exact h.lastIaddr_fits
        · exact h.thisSlot.iaddr_fits }

theorem emitted (h : s.Inv) {p : Packet} {wr : Written} (hwr : writePacket s p = .ok wr) : (s.emitted p wr).Inv := by
  have hstats := h.stats.countPacket s.cfg0 p
  rcases writePacket_carry hwr with ⟨halign, hcarry⟩ | ⟨hplain, hcarry⟩
  · exact { h with
      wrCarry := by rw [State.emitted, halign, hcarry]; exact h.wrCarry
      pulp_aligned := fun hpulp => halign.trans (h.pulp_aligned hpulp)
      stats := hstats }
  · exact { h with
      wrCarry := hcarry
      pulp_aligned := fun hpulp => absurd (hplain.symm.trans hpulp) (by decide)
      stats := hstats }

theorem flushWriter (h : s.Inv) : s.flushWriter.Inv := by
  unfold State.flushWriter
  split
  · exact h
  · exact { h with wrCarry := Nat.zero_lt_one, pulp_aligned := fun _ => rfl }

theorem fail (h : s.Inv) (e : ErrCode) : (s.fail e).Inv := h.raise e h.stats

variable {i : Instr} {w t : State} {pk : Option Packet} {finish : State → State}

theorem of_prepares (h : s.Inv) (hp : Prepares i s w pk finish) : w.Inv := by
  cases hp with
  | step _ _ _ process => exact (h.shiftRecord _).of_processed (process_processed process)
  | finish _ process =>
    exact (h.shiftIn (Slot.inv_empty _) (changesFrom_empty _) rfl).of_processed (process_processed process)
  | inject => exact h

theorem complete (hv : w.Inv) (hp : Prepares i s t pk finish) : (finish w).Inv := by
  cases hp with
  | step => exact hv
  | finish => exact hv.flushWriter
  | inject => exact hv

/-- Every instruction keeps the invariant. -/
theorem of_exec (h : s.Inv) (hexec : exec i s = .next t) : t.Inv := by
  cases exec_effect hexec with
  | kept e q => exact h.keep e q
  | @configured c0 c1 _ reserved => exact (configure s c1 reserved).done
  | @worked w t pk finish prepares completes =>
    have hw := h.of_prepares prepares
    cases completes with
    | silent => exact (hw.complete prepares).done
    | @failed p e _ =>
      have hparams : w.params = s.params := by obtain ⟨_, _, _, _, _, _, rfl⟩ := prepares.frame; rfl
      exact h.raise e (hparams ▸ hw.stats.countPacket w.cfg0 p)
    | emitted written => exact ((hw.emitted written).complete prepares).done

end State.Inv

/-- Settles O56: the request that a step takes is not part of the invariant, and the instruction it stands for, or its
error, keeps it. -/
theorem everyStepKeepsTheInvariant : Obligations.EveryStepKeepsTheInvariant := by
  intro s t h hstep
  unfold step at hstep
  rcases fetch_cases s with ⟨-, hf⟩ | ⟨r, rest, i, -, -, hf⟩ | ⟨r, rest, e, -, -, hf⟩
  · rw [hf] at hstep
    cases hstep
    exact h
  · rw [hf] at hstep
    exact (h.takeRequest rest).of_exec hstep
  · rw [hf] at hstep
    cases hstep
    exact (h.takeRequest rest).fail e

end Sys2Proof.Machine

/-! # What operations read, write and count -/

namespace Sys2Proof.Machine

/-! ### OP_READ, the step, the queues and the configuration -/

/-- Settles O6: by evaluation of the one answer OP_READ has. -/
theorem opReadReturnsTheRegisters : Obligations.OpReadReturnsTheRegisters :=
  fun s => ⟨(s.doneRead s.readView).ports, rfl, rfl, rfl⟩

/-- Settles O57: by what taking the next request answers. -/
theorem stepRunsTheDecodedRequest : Obligations.StepRunsTheDecodedRequest := by
  intro s
  refine ⟨fun hidle => by simp [step, fetch, hidle], fun r rest hreq => ⟨fun i hi => ?_, fun e he => ?_⟩⟩
  · simp [step, fetch, hreq, hi]
  · exact ⟨⟨e, none, none, none⟩, by simp [step, fetch, hreq, he, State.fail, State.raise], rfl⟩

/-- Settles O51: an operation that prepares nothing appends nothing, and one that does appends its packet and the bytes of
the writer and of the completion. -/
theorem outputQueuesOnlyGrow : Obligations.OutputQueuesOnlyGrow := by
  intro i s t h
  cases exec_effect h with
  | kept e q => exact ⟨[], [], by simp⟩
  | configured => exact ⟨[], [], by simp⟩
  | @worked w t pk finish prepares completes =>
    obtain ⟨last, this, next, m, a, x, rfl⟩ := prepares.frame
    have hi := prepares.instr_cases
    cases completes with
    | silent =>
      obtain ⟨bs, al, c, hf⟩ := prepares.finish_frame _
      rw [hf]
      exact ⟨[], bs, by simp, rfl, by simp, fun _ => hi⟩
    | failed => exact ⟨[], [], by simp⟩
    | @emitted p wr written =>
      obtain ⟨bs, al, c, hf⟩ := prepares.finish_frame (State.emitted _ p wr)
      rw [hf]
      exact ⟨[p], wr.bytes ++ bs, rfl, by simp [State.emitted], by simp, fun _ => hi⟩

/-- Settles O53: the configuration, the resync pair, the parameters and the requests are outside what any operation but
OP_CONFIG and OP_RESET prepares and completes. -/
theorem configurationChangesOnlyByConfig : Obligations.ConfigurationChangesOnlyByConfig := by
  intro i s t h
  cases exec_effect h with
  | kept e q => simp
  | @configured c0 c1 instr =>
    refine ⟨rfl, rfl, fun hreset hconfig => ?_⟩
    rcases instr with rfl | ⟨c, rfl⟩
    · exact absurd rfl hreset
    · exact absurd rfl (hconfig c c1)
  | @worked w t pk finish prepares completes =>
    obtain ⟨last, this, next, m, a, x, rfl⟩ := prepares.frame
    cases completes with
    | silent =>
      obtain ⟨bs, al, c, hf⟩ := prepares.finish_frame _
      rw [hf]
      simp
    | failed => simp
    | @emitted p wr written =>
      obtain ⟨bs, al, c, hf⟩ := prepares.finish_frame (State.emitted _ p wr)
      rw [hf]
      simp [State.emitted]

/-! ### What counting a packet changes -/

namespace Stats

variable (n : Nat) (k : PacketKind) (t : Stats)

theorem countKind_pktBranchFull : (t.countKind n k).pktBranchFull =
    if k = .branchFull ∨ k = .branchFullNoaddr then bump n t.pktBranchFull 1 else t.pktBranchFull := by
  cases k <;> rfl

theorem countKind_pktBranchDiff : (t.countKind n k).pktBranchDiff =
    if k = .branchDiff ∨ k = .branchDiffNoaddr then bump n t.pktBranchDiff 1 else t.pktBranchDiff := by
  cases k <;> rfl

theorem countKind_pktAddrOnly : (t.countKind n k).pktAddrOnly =
    if k = .addrOnly then bump n t.pktAddrOnly 1 else t.pktAddrOnly := by
  cases k <;> rfl

theorem countKind_pktSyncStart : (t.countKind n k).pktSyncStart =
    if k = .syncStart then bump n t.pktSyncStart 1 else t.pktSyncStart := by
  cases k <;> rfl

theorem countKind_pktSyncException : (t.countKind n k).pktSyncException =
    if k = .syncException then bump n t.pktSyncException 1 else t.pktSyncException := by
  cases k <;> rfl

theorem countKind_pktSoftware : (t.countKind n k).pktSoftware =
    if k = .software then bump n t.pktSoftware 1 else t.pktSoftware := by
  cases k <;> rfl

theorem countKind_pktTimer : (t.countKind n k).pktTimer =
    if k = .timer then bump n t.pktTimer 1 else t.pktTimer := by
  cases k <;> rfl

@[simp] theorem countKind_instrs : (t.countKind n k).instrs = t.instrs := by cases k <;> rfl
@[simp] theorem countKind_payloadBits : (t.countKind n k).payloadBits = t.payloadBits := by cases k <;> rfl
@[simp] theorem countKind_pulpBits : (t.countKind n k).pulpBits = t.pulpBits := by cases k <;> rfl
@[simp] theorem countKind_addrZero : (t.countKind n k).addrZero = t.addrZero := by cases k <;> rfl
@[simp] theorem countKind_addrOnes : (t.countKind n k).addrOnes = t.addrOnes := by cases k <;> rfl
@[simp] theorem countKind_sextHist : (t.countKind n k).sextHist = t.sextHist := by cases k <;> rfl

end Stats

theorem toNat_truncX (w : Nat) (v : Word) : (truncX w v).toNat = v.toNat % 2 ^ w := by
  rw [truncX, BitVec.toNat_ofNat]
  exact Nat.mod_eq_of_lt (Nat.lt_of_le_of_lt (Nat.mod_le _ _) v.isLt)

theorem truncX_eq_zero_iff (w : Nat) (v : Word) : truncX w v = 0 ↔ v.toNat % 2 ^ w = 0 := by
  rw [← BitVec.toNat_inj, toNat_truncX]; rfl

theorem truncX_eq_ones_iff (arch64 : Bool) (v : Word) :
    truncX (xlen arch64) v = truncX (xlen arch64) (~~~0#64) ↔ v.toNat % 2 ^ xlen arch64 = 2 ^ xlen arch64 - 1 := by
  rw [← BitVec.toNat_inj, toNat_truncX, toNat_truncX]
  cases arch64 <;> rfl

theorem bumpAt_eq_modify (n : Nat) (l : List Nat) (i : Nat) : bumpAt n l i = l.modify i (fun c => bump n c 1) := by
  induction l generalizing i with
  | nil => cases i <;> rfl
  | cons c l ih =>
    cases i with
    | zero => rfl
    | succ i => simp [bumpAt, ih]

/-- The packets that the stream writer accepts have passed the serializer's checks (43_serializer.md R231). -/
theorem validate_of_writePacket {s : State} {p : Packet} {wr : Written} (h : writePacket s p = .ok wr) :
    validate s.xlen p = none := by
  unfold writePacket at h
  split at h
  · rcases serPulp_cases s.xlen s.params.pulpTval p with ⟨e, -, h'⟩ | ⟨hv, -, -⟩ | ⟨hv, -, -⟩
    · simp [h'] at h
    · exact hv
    · exact hv
  · rcases writePlain_cases s.xlen p s.wrAlign s.wrCarry with ⟨e, -, h'⟩ | ⟨hv, -⟩
    · simp [h'] at h
    · exact hv

theorem xlen_ge (arch64 : Bool) : 32 ≤ xlen arch64 := by cases arch64 <;> decide

/-- The shortest packet is an ADDR_ONLY with one address bit (30_encoding.md R107). -/
theorem five_le_packetBits_length {arch64 tv : Bool} {p : Packet} (h : validate (xlen arch64) p = none) :
    5 ≤ (packetBits (xlen arch64) tv p).length := by
  have hw := xlen_ge arch64
  have haddr : p.kind = .addrOnly → 1 ≤ p.addrBits := by
    intro hk
    simp [validate, Packet.reservedError, hk] at h
    omega
  have hres := validate_none_reserved _ _ h
  rw [pulpBody_length _ tv p h]
  unfold Packet.pulpBodyLen Packet.bitLen
  cases hk : p.kind with
  | addrOnly => have := haddr hk; simp only; omega
  | reservedMsg0 => simp [Packet.reservedError, hk] at hres
  | _ => simp only; omega

theorem frameOf_length (b : Bits) : (frameOf b).length = 8 * frameBytes b.length := by
  have := frameBytes_room b.length
  simp only [frameOf, List.length_append, bitsOf_length, List.length_replicate]
  omega

/-- The PULP frame length of a packet that passes the checks: its whole bytes, or 0 if they are more than the 17 that the
length field can say (10_state.md R34, 43_serializer.md R244). -/
theorem pulpFrameBits_eq {arch64 tv : Bool} {p : Packet} (h : validate (xlen arch64) p = none) :
    pulpFrameBits (xlen arch64) tv p = 8 * bytesFor (4 + (packetBits (xlen arch64) tv p).length)
      * (if bytesFor (4 + (packetBits (xlen arch64) tv p).length) ≤ 17 then 1 else 0) := by
  have h5 := five_le_packetBits_length (tv := tv) h
  have hbytes : frameBytes (packetBits (xlen arch64) tv p).length
      = bytesFor (4 + (packetBits (xlen arch64) tv p).length) := by
    simp only [frameBytes, bytesFor, pulpPktLen]; omega
  have hlen := frameBytes_eq (packetBits (xlen arch64) tv p).length
  unfold pulpFrameBits
  rcases serPulp_cases (xlen arch64) tv p with ⟨e, he, -⟩ | ⟨-, hl, h'⟩ | ⟨-, hl, h'⟩
  · simp [h] at he
  · simp only [h']
    rw [if_neg (by omega), Nat.mul_zero]
  · have hwhole (m : Nat) : bytesFor (8 * m) = m := by unfold bytesFor; omega
    simp only [h', toBytes_length, frameOf_length, hwhole, hbytes]
    rw [if_pos (by omega), Nat.mul_one]

theorem packerBucket_eq (full : Bool) (p : Packet) : packerBucket full p =
    if full = false ∧ (p.kind = .branchFull ∨ p.kind = .branchDiff ∨ p.kind = .addrOnly) then some (p.addrBits - 1)
    else none := by
  unfold packerBucket
  cases full
  · cases p.kind <;> rfl
  · rfl

/-- The lengths that one packet adds, when it has passed the serializer's checks (10_state.md R34). -/
theorem countPacket_bits (params : Params) {cfg0 : BitVec 32} {p : Packet} (t : Stats)
    (h : validate (xlen (Cfg0.arch64 cfg0)) p = none) :
    (t.countPacket params cfg0 p).payloadBits
      = bump params.statw t.payloadBits (packetBits (xlen (Cfg0.arch64 cfg0)) true p).length
    ∧ (t.countPacket params cfg0 p).pulpBits = bump params.statw t.pulpBits
        (8 * bytesFor (4 + (packetBits (xlen (Cfg0.arch64 cfg0)) params.pulpTval p).length)
          * (if bytesFor (4 + (packetBits (xlen (Cfg0.arch64 cfg0)) params.pulpTval p).length) ≤ 17 then 1 else 0)) := by
  rw [packetBits_length _ p h, ← pulpFrameBits_eq h]
  simp [Stats.countPacket]

theorem countPacket_addr (params : Params) (cfg0 : BitVec 32) (p : Packet) (t : Stats) :
    (t.countPacket params cfg0 p).addrZero =
      (if p.hasAddress = true ∧ p.address.toNat % 2 ^ xlen (Cfg0.arch64 cfg0) = 0 then bump params.statw t.addrZero 1
      else t.addrZero)
    ∧ (t.countPacket params cfg0 p).addrOnes =
      (if p.hasAddress = true ∧ p.address.toNat % 2 ^ xlen (Cfg0.arch64 cfg0) = 2 ^ xlen (Cfg0.arch64 cfg0) - 1 then
        bump params.statw t.addrOnes 1
      else t.addrOnes) := by
  simp only [Stats.countPacket, Bool.and_eq_true, beq_iff_eq, truncX_eq_zero_iff, truncX_eq_ones_iff,
    Stats.countKind_addrZero, Stats.countKind_addrOnes, and_self]

theorem countPacket_sextHist (params : Params) (cfg0 : BitVec 32) (p : Packet) (t : Stats) :
    (t.countPacket params cfg0 p).sextHist =
      if Cfg0.fullAddress cfg0 = false ∧ (p.kind = .branchFull ∨ p.kind = .branchDiff ∨ p.kind = .addrOnly) then
        t.sextHist.modify (p.addrBits - 1) (fun c => bump params.statw c 1)
      else t.sextHist := by
  simp only [Stats.countPacket, packerBucket_eq, Stats.countKind_sextHist]
  by_cases h : Cfg0.fullAddress cfg0 = false ∧ (p.kind = .branchFull ∨ p.kind = .branchDiff ∨ p.kind = .addrOnly)
  · simp only [if_pos h, bumpAt_eq_modify]
  · simp only [if_neg h]

/-- Settles O22: the counters of an operation that emitted a packet are those of its working state, in which OP_STEP has
counted its record, with the packet counted. -/
theorem emissionCountsThePacket : Obligations.EmissionCountsThePacket := by
  intro s t i p h hq
  obtain ⟨v, wr, finish, prepares, written, rfl⟩ := exec_emitted h hq
  obtain ⟨k, hx, hstep, hother⟩ := prepares.stats
  have hv := validate_of_writePacket written
  have hxlen : v.xlen = s.xlen := by obtain ⟨_, _, _, _, _, _, rfl⟩ := prepares.frame; rfl
  have hstats : (finish (v.emitted p wr)).done.stats
      = Stats.countPacket s.params s.cfg0 p { s.stats with instrs := k } := by
    obtain ⟨_, _, _, hf⟩ := prepares.finish_frame (v.emitted p wr)
    obtain ⟨_, _, _, _, _, _, rfl⟩ := prepares.frame
    rw [hf, ← hx]; rfl
  rw [hxlen] at hv
  obtain ⟨hpayload, hpulp⟩ := countPacket_bits s.params { s.stats with instrs := k } hv
  obtain ⟨hzero, hones⟩ := countPacket_addr s.params s.cfg0 p { s.stats with instrs := k }
  have hinstrs : (Stats.countPacket s.params s.cfg0 p { s.stats with instrs := k }).instrs = k :=
    Stats.countKind_instrs _ _ _
  intro w add
  rw [hstats, hinstrs]
  exact ⟨Stats.countKind_pktBranchFull _ _ _, Stats.countKind_pktBranchDiff _ _ _, Stats.countKind_pktAddrOnly _ _ _,
    Stats.countKind_pktSyncStart _ _ _, Stats.countKind_pktSyncException _ _ _, Stats.countKind_pktSoftware _ _ _,
    Stats.countKind_pktTimer _ _ _, hpayload, hpulp, hzero, hones, countPacket_sextHist _ _ _ _, hstep, hother⟩

/-! ### The window after OP_STEP -/

/-- The slot of a record, with the cut of each value to its field spelled out (10_state.md R24, R26). -/
theorem slotOf_eq (w : Nat) (classes : Classes) (r : Record) (prev : Slot) :
    slotOf w classes r prev = {
      q := true
      exception := r.exception
      interrupt := r.interrupt
      cause := BitVec.ofNat 5 (r.cause % 2 ^ 5)
      tval := BitVec.ofNat 64 (r.tval % 2 ^ w)
      priv := BitVec.ofNat 3 (r.priv % 2 ^ 3)
      iaddr := BitVec.ofNat 64 (r.iaddr % 2 ^ w)
      instr := BitVec.ofNat 64 (r.instr % 2 ^ 64)
      compressed := r.compressed
      isBranch := classes.isBranch
      unpredDisc := classes.isUnpred
      privilegeChange := prev.q && decide (prev.priv.toNat ≠ r.priv % 2 ^ 3)
      ees := false } := by
  have hcut (n v : Nat) : BitVec.ofNat n (v % 2 ^ n) = BitVec.ofNat n v :=
    BitVec.eq_of_toNat_eq (by simp)
  have hpriv : (prev.priv != BitVec.ofNat 3 r.priv) = decide (prev.priv.toNat ≠ r.priv % 2 ^ 3) := by
    rw [Bool.eq_iff_iff, bne_iff_ne, decide_eq_true_iff, ← BitVec.toNat_ofNat, ne_eq, ne_eq, BitVec.toNat_inj]
  simp only [slotOf, hcut, hpriv]

/-- Settles O9: OP_STEP with a valid and supported record shifts the window, of which PROCESS and the emission write `ees`
of `this` alone, unless the emission fails. -/
theorem supportedRecordEntersTheWindow : Obligations.SupportedRecordEntersTheWindow := by
  intro s t r hvalid hsup h hok
  have hsup' : (s.classOf r).isUnsupported = false := hsup
  obtain ⟨w, pk, hp, -⟩ := process_ok (s.shiftRecord r)
  have ht : t = processAndEmit s (s.shiftRecord r) id := by
    simpa [exec, execOpStep, hvalid, hsup'] using h.symm
  have hc := processAndEmit_completes (s := s) id hp
  rw [← ht] at hc
  cases process_processed hp with
  | mk e m a =>
    cases hc with
    | silent => exact ⟨rfl, rfl, slotOf_eq _ _ _ _, rfl⟩
    | failed error => exact absurd hok (writePacket_code error).ne_noError
    | emitted => exact ⟨rfl, rfl, slotOf_eq _ _ _ _, Stats.countKind_instrs _ _ _⟩

/-! ### Writing a packet and writing its row -/

theorem branches_ne_zero_of_kind {p : Packet} (hk : p.kind = .branchFull ∨ p.kind = .branchDiff) : p.branches ≠ 0 := by
  intro h0
  unfold Packet.kind at hk
  simp only [h0, if_true] at hk
  repeat' split at hk
  all_goals simp at hk

theorem canon_kind (w : Nat) (p : Packet) : (p.canon w).kind = p.kind := by
  unfold Packet.canon
  cases hk : p.kind with
  | branchFull => simp [Packet.kind, Packet.branchFull, branches_ne_zero_of_kind (.inl hk)]
  | branchDiff => simp [Packet.kind, Packet.branchDiff, branches_ne_zero_of_kind (.inr hk)]
  | _ => rfl

theorem validate_canon (w : Nat) (p : Packet) : validate w (p.canon w) = validate w p := by
  simp only [validate, Packet.reservedError, canon_kind]
  cases hk : p.kind <;> simp only [Packet.canon, hk] <;> rfl

theorem packetBits_canon (w : Nat) (tv : Bool) (p : Packet) : packetBits w tv (p.canon w) = packetBits w tv p := by
  simp only [packetBits, canon_kind]
  cases hk : p.kind <;> simp only [Packet.canon, hk] <;> rfl

theorem bitLen_canon (w : Nat) (p : Packet) : (p.canon w).bitLen w = p.bitLen w := by
  simp only [Packet.bitLen, canon_kind]
  cases hk : p.kind <;> simp only [Packet.canon, hk] <;> rfl

theorem serPlain_canon (w : Nat) (p : Packet) (align : Nat) (carry : Byte) :
    serPlain w (p.canon w) align carry = serPlain w p align carry := by
  simp only [serPlain, validate_canon, packetBits_canon, bitLen_canon]

theorem serPulp_canon (w : Nat) (tv : Bool) (p : Packet) : serPulp w tv (p.canon w) = serPulp w tv p := by
  simp only [serPulp, validate_canon, packetBits_canon]

/-- The row of a packet means the use of the packet with its unused fields 0. -/
theorem plainInstr_form (w : Nat) (u : PlainUse) (p : Packet) : (p.plainInstr u).form w = .plain p.kind u (p.canon w) := by
  cases hk : p.kind <;> simp only [Packet.plainInstr, Packet.canon, hk] <;> rfl

theorem pulpInstr_form (w : Nat) (u : PulpUse) (p : Packet) : (p.pulpInstr u).form w = .pulp p.kind u (p.canon w) := by
  cases hk : p.kind <;> simp only [Packet.pulpInstr, Packet.canon, hk] <;> rfl

/-- Settles O32: the row is the packet with its unused fields 0, and the serializer does not read those. -/
theorem serializingAPacketIsWritingItsRow : Obligations.SerializingAPacketIsWritingItsRow := by
  intro s p align carry
  constructor
  · rw [exec_of_form_plain (plainInstr_form s.xlen (.write align carry) p)]
    simp only [exec, execOpSerPlain, usePlain, serPlainOp, serPlain_canon]
  · rw [exec_of_form_pulp (pulpInstr_form s.xlen .write p)]
    simp only [exec, execOpSerPulp, usePulp, serPulpOp, serPulp_canon]

/-! ### What `resync_max` and the statistics do not reach -/

/-- The state with another CFG1 and other statistics. -/
def State.withUnread (s : State) (c : BitVec 32) (x : Stats) : State := { s with cfg1 := c, stats := x }

/-- Two states that differ in CFG1, the statistics and the register-read port alone. -/
def SameBut (t u : State) : Prop :=
  ∃ (c : BitVec 32) (x : Stats) (o : Option ReadOut), u = { t with cfg1 := c, stats := x, ports := { t.ports with read := o } }

theorem recordBranch_withUnread (s : State) (c : BitVec 32) (x : Stats) :
    (s.withUnread c x).recordBranch = s.recordBranch.withUnread c x := by
  unfold State.recordBranch
  rw [apply_ite (State.withUnread · c x)]
  rfl

/-- PROCESS acts on such states alike (42_encoder_fsm.md R178, R183). -/
theorem process_withUnread {s t : State} {pk : Option Packet} (c : BitVec 32) (x : Stats)
    (h : s.process = .ok (t, pk)) : (s.withUnread c x).process = .ok (t.withUnread c x, pk) := by
  have hsel : selectRow (s.recordBranch.withUnread c x) = selectRow s.recordBranch := rfl
  have hact (v : State) (bb : Bool) (row : EmitRow) (hv : v.rowAction bb row = .ok (t, pk)) :
      (v.withUnread c x).rowAction bb row = .ok (t.withUnread c x, pk) := by
    cases row <;> cases hv <;> rfl
  rcases process_cases s with ⟨hq, h'⟩ | ⟨hq, hrow, h'⟩ | ⟨hq, row, -, hrow, h'⟩
  · cases h'.symm.trans h
    exact if_neg (by simp [State.withUnread, hq])
  · cases h'.symm.trans h
    refine (if_pos hq).trans ?_
    rw [recordBranch_withUnread, hsel, hrow]
  · refine (if_pos hq).trans ?_
    rw [recordBranch_withUnread, hsel, hrow]
    exact hact _ _ _ (h'.symm.trans h)

theorem emitPacket_sameBut {finish : State → State}
    (hf : ∀ v c x, finish (v.withUnread c x) = (finish v).withUnread c x) (s v : State) (p : Packet)
    (c c' : BitVec 32) (x x' : Stats) :
    SameBut (emitPacket s v p finish) (emitPacket (s.withUnread c x) (v.withUnread c' x') p finish) := by
  have hw : writePacket (v.withUnread c' x') p = writePacket v p := rfl
  unfold emitPacket
  rw [hw]
  cases writePacket v p with
  | error e => exact ⟨_, _, _, rfl⟩
  | ok wr =>
    have he : (v.withUnread c' x').emitted p wr
        = (v.emitted p wr).withUnread c' (x'.countPacket v.params v.cfg0 p) := rfl
    change SameBut (finish (v.emitted p wr)).done (finish ((v.withUnread c' x').emitted p wr)).done
    rw [he, hf]
    exact ⟨_, _, _, rfl⟩

theorem processAndEmit_sameBut {finish : State → State}
    (hf : ∀ v c x, finish (v.withUnread c x) = (finish v).withUnread c x) (s v : State)
    (c c' : BitVec 32) (x x' : Stats) :
    SameBut (processAndEmit s v finish) (processAndEmit (s.withUnread c x) (v.withUnread c' x') finish) := by
  obtain ⟨w, pk, h, -⟩ := process_ok v
  unfold processAndEmit
  rw [h, process_withUnread c' x' h]
  cases pk with
  | none => change SameBut _ (finish (w.withUnread c' x')).done; rw [hf]; exact ⟨_, _, _, rfl⟩
  | some p => exact emitPacket_sameBut hf s w p c c' x x'

theorem flushWriter_withUnread (s : State) (c : BitVec 32) (x : Stats) :
    (s.withUnread c x).flushWriter = s.flushWriter.withUnread c x := by
  unfold State.flushWriter
  rw [apply_ite (State.withUnread · c x)]
  rfl

section
variable (s : State) (c : BitVec 32) (x : Stats)

theorem serPlainOp_sameBut (p : Packet) (align : Nat) (carry : Byte) :
    SameBut (serPlainOp p align carry s) (serPlainOp p align carry (s.withUnread c x)) := by
  have hx : (s.withUnread c x).xlen = s.xlen := rfl
  unfold serPlainOp
  rw [hx]
  cases serPlain s.xlen p align carry <;> exact ⟨_, _, _, rfl⟩

theorem serPulpOp_sameBut (p : Packet) : SameBut (serPulpOp p s) (serPulpOp p (s.withUnread c x)) := by
  have hx : serPulp (s.withUnread c x).xlen (s.withUnread c x).params.pulpTval p
      = serPulp s.xlen s.params.pulpTval p := rfl
  unfold serPulpOp
  rw [hx]
  cases serPulp s.xlen s.params.pulpTval p <;> exact ⟨_, _, _, rfl⟩

theorem desPlainOp_sameBut (bytes : List Byte) (align n : Nat) :
    SameBut (desPlainOp bytes align n s) (desPlainOp bytes align n (s.withUnread c x)) := by
  have hx : (s.withUnread c x).xlen = s.xlen := rfl
  unfold desPlainOp
  rw [hx]
  cases plainBits bytes align n with
  | error e => exact ⟨_, _, _, rfl⟩
  | ok bits => dsimp only; cases deserialize s.xlen true bits <;> exact ⟨_, _, _, rfl⟩

theorem desPulpOp_sameBut (bytes : List Byte) : SameBut (desPulpOp bytes s) (desPulpOp bytes (s.withUnread c x)) := by
  have hx (bits : Bits) : deserialize (s.withUnread c x).xlen (s.withUnread c x).params.pulpTval bits
      = deserialize s.xlen s.params.pulpTval bits := rfl
  unfold desPulpOp
  simp only [hx]
  cases frameBits bytes with
  | error e => exact ⟨_, _, _, rfl⟩
  | ok r => dsimp only; cases deserialize s.xlen s.params.pulpTval r.2 <;> exact ⟨_, _, _, rfl⟩

theorem usePlain_sameBut (u : PlainUse) (p : Packet) : SameBut (usePlain u p s) (usePlain u p (s.withUnread c x)) := by
  cases u with
  | write align carry => exact serPlainOp_sameBut s c x p align carry
  | read align n =>
    have hx : (s.withUnread c x).xlen = s.xlen := rfl
    simp only [usePlain, hx]
    split
    · exact ⟨_, _, _, rfl⟩
    · cases readPacket s.xlen true n p <;> exact ⟨_, _, _, rfl⟩

theorem usePulp_sameBut (u : PulpUse) (p : Packet) : SameBut (usePulp u p s) (usePulp u p (s.withUnread c x)) := by
  cases u with
  | write => exact serPulpOp_sameBut s c x p
  | read len =>
    have hx (n : Nat) : readPacket (s.withUnread c x).xlen (s.withUnread c x).params.pulpTval n p
        = readPacket s.xlen s.params.pulpTval n p := rfl
    simp only [usePulp, hx]
    cases readPacket s.xlen s.params.pulpTval (8 * (len.toNat + 2) - pulpPktLen) p <;> exact ⟨_, _, _, rfl⟩

theorem execOpStep_sameBut (r : Record) : ∃ t u, execOpStep r s = .next t ∧ execOpStep r (s.withUnread c x) = .next u
    ∧ SameBut t u := by
  have hx : (s.withUnread c x).classOf r = s.classOf r := rfl
  refine ⟨_, _, rfl, rfl, ?_⟩
  rw [hx]
  split
  · split
    · exact ⟨_, _, _, rfl⟩
    · exact processAndEmit_sameBut (fun _ _ _ => rfl) s (s.shiftRecord r) c c x (x.countInstr s.params.statw)
  · exact ⟨_, _, _, rfl⟩

theorem execOpInject_sameBut (p : Packet) : ∃ t u, execOpInject p s = .next t
    ∧ execOpInject p (s.withUnread c x) = .next u ∧ SameBut t u := by
  refine ⟨_, _, rfl, rfl, ?_⟩
  split
  · exact emitPacket_sameBut (fun _ _ _ => rfl) s s (p.canon s.xlen) c c x x
  · exact ⟨_, _, _, rfl⟩

theorem exec_sameBut (i : Instr) : ∃ t u, exec i s = .next t ∧ exec i (s.withUnread c x) = .next u ∧ SameBut t u := by
  cases hi : i.form s.xlen with
  | plain k u p =>
    exact ⟨_, _, exec_of_form_plain hi, exec_of_form_plain (s := s.withUnread c x) hi, usePlain_sameBut s c x u p⟩
  | pulp k u p =>
    exact ⟨_, _, exec_of_form_pulp hi, exec_of_form_pulp (s := s.withUnread c x) hi, usePulp_sameBut s c x u p⟩
  | host =>
    cases i with
    | opReset => exact ⟨_, _, rfl, rfl, _, _, _, rfl⟩
    | opConfig c0 c1 => exact ⟨_, _, rfl, rfl, _, _, _, rfl⟩
    | opStep r => exact execOpStep_sameBut s c x r
    | opEnd =>
      exact ⟨_, _, rfl, rfl, processAndEmit_sameBut flushWriter_withUnread s (s.shiftIn Slot.empty) c c x x⟩
    | opInject p => exact execOpInject_sameBut s c x p
    | opClearStatus => exact ⟨_, _, rfl, rfl, _, _, _, rfl⟩
    | opRead => exact ⟨_, _, rfl, rfl, _, _, _, rfl⟩
    | opSerPlain p align carry => exact ⟨_, _, rfl, rfl, serPlainOp_sameBut s c x p align carry⟩
    | opSerPulp p => exact ⟨_, _, rfl, rfl, serPulpOp_sameBut s c x p⟩
    | opDesPlain bytes align n => exact ⟨_, _, rfl, rfl, desPlainOp_sameBut s c x bytes align n⟩
    | opDesPulp bytes => exact ⟨_, _, rfl, rfl, desPulpOp_sameBut s c x bytes⟩
    | _ => cases hi

end

/-- Settles O54: every operation acts on two states that differ in CFG1 and the statistics alike. -/
theorem resyncMaxAndStatisticsNeverAct : Obligations.ResyncMaxAndStatisticsNeverAct := by
  intro i s t u c x ht hu
  obtain ⟨t', u', ht', hu', c', x', o, hsame⟩ := exec_sameBut s c x i
  cases ht'.symm.trans ht
  cases hu'.symm.trans hu
  subst hsame
  rfl

end Sys2Proof.Machine

/-! # The output streams

The bytes that operations append to the byte queue, in the bit order of 20_memory.md R71 and R72: the bits of the queued
packets in the plain framing (R75, R77), their whole frames in the PULP framing (R76). The operations that write no stream
change only the ports, and STATUS when they fail (R78). -/

namespace Sys2Proof.Machine

/-! ### Bit and byte order -/

theorem bitsOf_getElem? (w v i : Nat) : (bitsOf w v)[i]? = if i < w then some (v.testBit i) else none := by
  induction w generalizing v i with
  | zero => simp [bitsOf]
  | succ w ih =>
    cases i with
    | zero => simp [bitsOf, Nat.testBit_zero, Bool.beq_eq_decide_eq]
    | succ i => simp [bitsOf, ih, Nat.testBit_succ]

theorem ofBytes_getElem? (bytes : List Byte) (k j : Nat) (hj : j < 8) :
    (ofBytes bytes)[8 * k + j]? = (bytes[k]?).map (fun b => b.getLsbD j) := by
  induction bytes generalizing k with
  | nil => simp [ofBytes]
  | cons b t ih =>
    cases k with
    | zero =>
      rw [ofBytes, List.getElem?_append_left (by simpa using hj), bitsOf_getElem?, Nat.mul_zero, Nat.zero_add, if_pos hj]
      rfl
    | succ k =>
      have hpast : 8 * (k + 1) + j - 8 = 8 * k + j := by omega
      rw [ofBytes, List.getElem?_append_right (by simp; omega), bitsOf_length, hpast, ih, List.getElem?_cons_succ]

/-- A packed bit string reads as 0 after its end (20_memory.md R72). -/
theorem ofBytes_toBytes_getD (s : Bits) (i : Nat) : (ofBytes (toBytes s)).getD i false = s.getD i false := by
  rw [ofBytes_toBytes]
  rcases Nat.lt_or_ge i s.length with hi | hi
  · rw [List.getD_append _ _ _ _ hi]
  · rw [List.getD_append_right _ _ _ _ hi, List.getD_eq_default _ _ hi, List.getD_eq_getElem?_getD,
      List.getElem?_getD_replicate_default_eq]

/-- Settles O33: a byte's bit is the bit of the bytes read back, which are the string and 0 bits. -/
theorem bitsAndBytesAreLeastSignificantFirst : Obligations.BitsAndBytesAreLeastSignificantFirst := by
  refine ⟨bitsOf_getElem?, fun s k j hj hk => ?_, ofBytes_getElem?⟩
  have hbyte : k < (toBytes s).length := by rwa [toBytes_length]
  refine ⟨(toBytes s)[k], List.getElem?_eq_getElem hbyte, ?_⟩
  have hread := ofBytes_getElem? (toBytes s) k j hj
  rw [List.getElem?_eq_getElem hbyte] at hread
  rw [← ofBytes_toBytes_getD, List.getD_eq_getElem?_getD, hread]
  rfl

/-! ### The operations that write no stream -/

/-- An operation other than OP_RESET and OP_CONFIG either prepares and completes its work, as OP_END always does, or keeps
all but STATUS and the ports. -/
theorem exec_worked_or_kept {i : Instr} {s t : State} (hreset : i ≠ .opReset) (hconfig : ∀ c0 c1, i ≠ .opConfig c0 c1)
    (h : exec i s = .next t) :
    (∃ w pk finish, Prepares i s w pk finish ∧ Completes s w finish pk t)
    ∨ (i ≠ .opEnd ∧ ∃ e q, t = { s with status := e, ports := q }) := by
  by_cases hend : i = .opEnd
  · subst hend
    cases h
    obtain ⟨w, pk, hp, -⟩ := process_ok (s.shiftIn Slot.empty)
    exact .inl ⟨w, pk, _, .finish rfl hp, processAndEmit_completes State.flushWriter hp⟩
  · cases exec_effect h with
    | kept e q => exact .inr ⟨hend, e, q, rfl⟩
    | configured instr =>
      rcases instr with hi | ⟨c, hi⟩
      · exact absurd hi hreset
      · exact absurd hi (hconfig _ _)
    | worked prepares completes => exact .inl ⟨_, _, _, prepares, completes⟩

/-- STATUS after an operation that does not clear it, OP_STEP apart: as it was on OK, else the answered code
(60_exceptions.md R304). -/
theorem ExecAnswers.status {i : Instr} {s t : State} (h : ExecAnswers i s t) (hclear : ¬ ClearsStatus i)
    (hstep : ∀ r, i ≠ .opStep r) : t.status = if t.ports.result = .noError then s.status else t.ports.result := by
  cases h with
  | codec answers =>
    cases answers with
    | ok result status => rw [if_pos result, status]
    | error code stats => exact (if_neg code.ne_noError).symm
  | unsupported r step => exact absurd step (hstep r)
  | cleared clears => exact absurd clears hclear

/-- Settles O52: an instruction that configures nothing and prepares nothing keeps all but STATUS and the ports. -/
theorem pureOperationsChangeOnlyPorts : Obligations.PureOperationsChangeOnlyPorts := by
  intro i s t h hreset hconfig hstep hend hinject hclear
  have hstatus : t.status = if t.ports.result = .noError then s.status else t.ports.result := by
    obtain ⟨u, hu, answers⟩ := exec_answers i s
    cases hu.symm.trans h
    refine answers.status ?_ hstep
    rintro (hi | hi | ⟨c0, c1, hi⟩)
    · exact hreset hi
    · exact hclear hi
    · exact hconfig c0 c1 hi
  rw [← hstatus]
  rcases exec_worked_or_kept hreset hconfig h with ⟨w, pk, finish, prepares, -⟩ | ⟨-, e, q, rfl⟩
  · rcases prepares.instr_cases with ⟨r, hi⟩ | hi | ⟨p, hi⟩
    · exact absurd hi (hstep r)
    · exact absurd hi hend
    · exact absurd hi (hinject p)
  · rfl

/-! ### The PULP stream -/

/-- The stream writer in the PULP framing: the packet's whole frame, and the carry as it was (20_memory.md R76). -/
theorem writePacket_pulp {s : State} {p : Packet} {wr : Written} (hpulp : Cfg0.pulpFraming s.cfg0 = true)
    (h : writePacket s p = .ok wr) :
    wr = ⟨toBytes (frameOf (packetBits s.xlen s.params.pulpTval p)), s.wrAlign, s.wrCarry⟩ := by
  rw [writePacket, if_pos hpulp] at h
  rcases serPulp_cases s.xlen s.params.pulpTval p with ⟨e, -, h'⟩ | ⟨-, -, h'⟩ | ⟨-, -, h'⟩ <;> rw [h'] at h <;> cases h
  rfl

namespace Prepares

variable {i : Instr} {s w : State} {pk : Option Packet} {finish : State → State}

/-- Completion does nothing to a writer that holds no started byte (20_memory.md R77). -/
theorem finish_of_aligned (h : Prepares i s w pk finish) {v : State} (hv : v.wrAlign = 0) : finish v = v := by
  cases h with
  | step | inject => rfl
  | finish => exact if_pos hv

/-- Preparation leaves the configuration, the queues and the stream writer alone (42_encoder_fsm.md R174 to R177). -/
theorem writer_frame (h : Prepares i s w pk finish) : w.params = s.params ∧ w.cfg0 = s.cfg0
    ∧ w.packetOut = s.packetOut ∧ w.byteOut = s.byteOut ∧ w.wrAlign = s.wrAlign ∧ w.wrCarry = s.wrCarry := by
  obtain ⟨_, _, _, _, _, _, rfl⟩ := h.frame
  exact ⟨rfl, rfl, rfl, rfl, rfl, rfl⟩

theorem finish_packetOut (h : Prepares i s w pk finish) (v : State) : (finish v).packetOut = v.packetOut := by
  obtain ⟨_, _, _, hf⟩ := h.finish_frame v
  rw [hf]

end Prepares

/-- Settles O21: the working state still has the writer, the queues and the configuration of the first one. -/
theorem pulpStreamIsWholeFrames : Obligations.PulpStreamIsWholeFrames := by
  intro s t i hpulp halign h
  cases exec_effect h with
  | kept e q => exact ⟨[], by simp [halign]⟩
  | configured => exact ⟨[], by simp [State.configure]⟩
  | @worked w t pk finish prepares completes =>
    obtain ⟨hparams, hcfg0, hqueue, hbytes, hwalign, hwcarry⟩ := prepares.writer_frame
    have hwalign0 : w.wrAlign = 0 := hwalign.trans halign
    cases completes with
    | silent =>
      rw [prepares.finish_of_aligned hwalign0]
      exact ⟨[], by simp [hqueue, hbytes, hwalign0, hwcarry]⟩
    | failed => exact ⟨[], by simp [halign]⟩
    | @emitted p wr written =>
      cases writePacket_pulp (hcfg0 ▸ hpulp) written
      rw [prepares.finish_of_aligned (v := w.emitted p ⟨_, _, _⟩) hwalign0]
      exact ⟨[p], by simp [State.emitted, State.xlen, hparams, hcfg0, hqueue, hbytes, hwalign0, hwcarry]⟩

/-! ### The packets that operations emit pass the serializer's checks -/

theorem validate_addrOnly {w k : Nat} (a : Word) (hk : 1 ≤ k ∧ k ≤ w) : validate w (Packet.addrOnly a k) = none := by
  have : ¬ (k < 1 ∨ w < k) := by omega
  simpa [validate, Packet.reservedError, Packet.kind, Packet.addrOnly] using this

theorem validate_branchFullNoaddr {w mb : Nat} (m : BitVec 31) (hmb : 1 ≤ mb ∧ mb ≤ 31) :
    validate w (Packet.branchFullNoaddr m mb) = none := by
  have : ¬ (mb < 1 ∨ 31 < mb) := by omega
  simpa [validate, Packet.reservedError, Packet.kind, Packet.branchFullNoaddr, Packet.zero] using this

section

variable {w cnt k : Nat} (m : BitVec 31) (a : Word)

theorem validate_branchFull (hcnt : cnt ≠ 0 ∧ cnt ≤ 31) (hk : 1 ≤ k ∧ k ≤ w) :
    validate w (Packet.branchFull cnt m (bml cnt) a k) = none := by
  have : ¬ (k = 0 ∨ w < k) := by omega
  simp [validate, Packet.reservedError, Packet.kind, Packet.branchFull, hcnt.1, Nat.not_lt_of_le hcnt.2, this]

theorem validate_branchDiff (hcnt : cnt ≠ 0 ∧ cnt ≤ 31) (hk : 1 ≤ k ∧ k ≤ w) :
    validate w (Packet.branchDiff cnt m (bml cnt) a k) = none := by
  have : ¬ (k = 0 ∨ w < k) := by omega
  simp [validate, Packet.reservedError, Packet.kind, Packet.branchDiff, hcnt.1, Nat.not_lt_of_le hcnt.2, this]

end

theorem State.xlen_pos (s : State) : 1 ≤ s.xlen := Nat.le_trans (by decide) (xlen_ge (Cfg0.arch64 s.cfg0))

theorem keep_lead_range (s : State) (qs : Bool) (x : Word) :
    1 ≤ keep (lead qs s.xlen x) s.xlen ∧ keep (lead qs s.xlen x) s.xlen ≤ s.xlen :=
  keep_range _ _ s.xlen_pos (lead_le _ _ _)

/-- The packer keeps 1 to XLEN bits (41_address_packer.md R153, R155). -/
theorem pack_range (s : State) (qs : Bool) (full diff : Word) :
    1 ≤ (pack qs s.xlen full diff).2 ∧ (pack qs s.xlen full diff).2 ≤ s.xlen := by
  unfold pack
  split <;> exact keep_lead_range s qs _

/-- A non-empty value has a sign bit, which the leading run counts (41_address_packer.md R150). -/
theorem seb_pos {w : Nat} (x : Nat) (hw : 1 ≤ w) : 1 ≤ seb w x := by
  cases hrev : (bitsOf w x).reverse with
  | nil =>
    have := congrArg List.length hrev
    simp at this
    omega
  | cons b t => simp [seb, hrev, leadRun]

/-- The full-map packet has 1 to 31 map bits (40_accumulator.md R135). -/
theorem fullmapBits_range (compress : Bool) (bits : BitVec 31) :
    1 ≤ fullmapBits compress bits ∧ fullmapBits compress bits ≤ 31 := by
  have := seb_pos (w := 32) (bits.toNat * 2 % 2 ^ 32) (by decide)
  unfold fullmapBits
  split <;> omega

/-- FLUSH sends a packet in range, whatever the accumulator holds (42_encoder_fsm.md R194 to R198). -/
theorem validate_flushPacket (s : State) (disc : Bool) : validate s.xlen (s.flushPacket disc) = none := by
  have hle : s.map.cnt.toNat ≤ 31 := Nat.le_of_lt_succ s.map.cnt.isLt
  have hfull : 1 ≤ s.xlen ∧ s.xlen ≤ s.xlen := ⟨s.xlen_pos, Nat.le_refl _⟩
  unfold State.flushPacket
  dsimp only
  split
  · split
    · exact validate_addrOnly _ hfull
    · exact validate_addrOnly _ (keep_lead_range s _ _)
  next hcnt =>
    split
    · exact validate_branchFullNoaddr _ (by decide)
    · split
      · exact validate_branchFull _ _ ⟨hcnt, hle⟩ hfull
      · have hpack := pack_range s (Cfg0.usePulpSext s.cfg0) s.thisSlot.iaddr s.flushDiff
        split
        next hk => rw [hk] at hpack; exact validate_branchDiff _ _ ⟨hcnt, hle⟩ hpack
        next hk => rw [hk] at hpack; exact validate_branchFull _ _ ⟨hcnt, hle⟩ hpack

/-- Every packet that PROCESS answers is in range (42_encoder_fsm.md R184 to R191). -/
theorem validate_of_process {s t : State} {p : Packet} (h : s.process = .ok (t, some p)) : validate t.xlen p = none := by
  rcases process_cases s with ⟨-, h'⟩ | ⟨-, -, h'⟩ | ⟨-, row, hrow, -, h'⟩
  · cases h'.symm.trans h
  · cases h'.symm.trans h
  · obtain ⟨u, q, hact, hu⟩ := rowAction_cases s.recordBranch s.syncBranchBit row hrow
    cases (h'.trans hact).symm.trans h
    rcases hu with ⟨-, rfl, rfl⟩ | ⟨-, rfl, rfl⟩ | ⟨-, rfl, rfl⟩ | ⟨-, rfl, rfl⟩ | ⟨-, rfl, rfl⟩
    · rfl
    · rfl
    · exact validate_flushPacket _ _
    · exact validate_flushPacket _ _
    · exact validate_branchFullNoaddr _ (fullmapBits_range _ _)

theorem validate_of_timer_or_software (w : Nat) {p : Packet} (h : p.msgType = 1 ∨ p.msgType = 3) :
    validate w p = none := by
  rcases h with h | h <;> simp [validate, Packet.reservedError, Packet.kind, h]

/-- Every packet made ready for emission passes the checks of 43_serializer.md R231, from every state. -/
theorem Prepares.validate {i : Instr} {s w : State} {p : Packet} {finish : State → State}
    (h : Prepares i s w (some p) finish) : validate w.xlen p = none := by
  cases h with
  | step _ _ _ process => exact validate_of_process process
  | finish _ process => exact validate_of_process process
  | inject _ kind => rw [validate_canon]; exact validate_of_timer_or_software _ kind

/-! ### The plain stream -/

theorem bitsOf_mod_of_le {j k : Nat} (v : Nat) (h : j ≤ k) : bitsOf j (v % 2 ^ k) = bitsOf j v := by
  rw [← bitsOf_take k j _ h, bitsOf_mod, bitsOf_take k j _ h]

/-- The bits of a value above its width are 0. -/
theorem bitsOf_add_of_lt {a v : Nat} (k : Nat) (h : v < 2 ^ a) :
    bitsOf (a + k) v = bitsOf a v ++ List.replicate k false := by
  have hv : value (bitsOf a v ++ List.replicate k false) = v := by
    rw [value_append_replicate_false, value_bitsOf, Nat.mod_eq_of_lt h]
  have hbits := bitsOf_value (bitsOf a v ++ List.replicate k false)
  rwa [hv, List.length_append, bitsOf_length, List.length_replicate] at hbits

/-- The first `k` bytes and then `j` bits of the next one are the first `8 * k + j` bits. -/
theorem ofBytes_take_append (bytes : List Byte) (k j : Nat) (hj : j ≤ 8) (hk : 8 * k + j ≤ 8 * bytes.length) :
    ofBytes (bytes.take k) ++ bitsOf j (bytes.getD k 0).toNat = (ofBytes bytes).take (8 * k + j) := by
  induction bytes generalizing k with
  | nil =>
    obtain rfl : j = 0 := by simp at hk; omega
    simp [ofBytes, bitsOf]
  | cons b t ih =>
    cases k with
    | zero => simp [ofBytes, List.take_append, bitsOf_take 8 j _ hj, Nat.sub_eq_zero_of_le hj]
    | succ k =>
      have hsum : 8 * (k + 1) + j = 8 + (8 * k + j) := by omega
      have ih := ih k (by simp at hk; omega)
      rw [List.getD_cons_succ, List.take_succ_cons, ofBytes, ofBytes, List.append_assoc, ih, hsum, List.take_append,
        List.take_of_length_le (l := bitsOf 8 _) (by rw [bitsOf_length]; omega), bitsOf_length, Nat.add_sub_cancel_left]

/-- A packed bit string is its whole bytes and the bits of the byte started after them (20_memory.md R72). -/
theorem whole_bytes_append_started (s : Bits) :
    ofBytes ((toBytes s).take (s.length / 8)) ++ bitsOf (s.length % 8) ((toBytes s).getD (s.length / 8) 0).toNat = s := by
  rw [ofBytes_take_append _ _ _ (by omega) (by rw [toBytes_length, bytesFor]; omega), Nat.div_add_mod,
    take_ofBytes_toBytes]

/-- The started byte has the carry's value (20_memory.md R75, R77). -/
theorem toNat_carry_byte (carry : BitVec 7) : (carry.zeroExtend 8).toNat = carry.toNat := by
  rw [BitVec.toNat_setWidth]
  exact Nat.mod_eq_of_lt (Nat.lt_trans carry.isLt (by decide))

/-- The plain stream writer adds exactly the packet's bits to those of the started byte (20_memory.md R75). -/
theorem writePlain_stream {w : Nat} {p : Packet} {align : BitVec 3} {carry : BitVec 7} {wr : Written}
    (h : writePlain w p align carry = .ok wr) :
    ofBytes wr.bytes ++ bitsOf wr.align.toNat wr.carry.toNat = bitsOf align.toNat carry.toNat ++ packetBits w true p := by
  rcases serPlain_cases w p align.toNat (carry.zeroExtend 8) with ⟨-, h'⟩ | ⟨-, e, -, h'⟩ | ⟨-, hv, h'⟩
  · simp [writePlain, h'] at h
  · simp [writePlain, h'] at h
  · rw [toNat_carry_byte] at h'
    have hlen : (bitsOf align.toNat carry.toNat ++ packetBits w true p).length = align.toNat + p.bitLen w := by
      rw [List.length_append, bitsOf_length, packetBits_length w p hv]
    rw [← whole_bytes_append_started (bitsOf align.toNat carry.toNat ++ packetBits w true p), hlen]
    simp only [writePlain, h'] at h
    split at h
    next hwhole => cases h; rw [hwhole]; rfl
    next =>
      cases h
      have halign : (BitVec.ofNat 3 ((align.toNat + p.bitLen w) % 8)).toNat = (align.toNat + p.bitLen w) % 8 := by
        rw [BitVec.toNat_ofNat]; omega
      dsimp only
      rw [halign, BitVec.truncate_eq_setWidth, BitVec.toNat_setWidth, bitsOf_mod_of_le _ (by omega)]

@[simp] theorem State.done_stream (s : State) : s.done.stream = s.stream := rfl

section

variable {s : State} {p : Packet} {wr : Written} (hplain : Cfg0.pulpFraming s.cfg0 = false)
include hplain

theorem writePacket_plain : writePacket s p = writePlain s.xlen p s.wrAlign s.wrCarry := by
  simp [writePacket, hplain]

/-- Emission in the plain framing (42_encoder_fsm.md R203). -/
theorem emitted_stream (h : writePacket s p = .ok wr) :
    (s.emitted p wr).stream = s.stream ++ packetBits s.xlen true p := by
  rw [writePacket_plain hplain] at h
  simp only [State.stream, State.emitted, ofBytes_append, List.append_assoc, writePlain_stream h]

theorem emitted_carry (h : writePacket s p = .ok wr) :
    (s.emitted p wr).wrCarry.toNat < 2 ^ (s.emitted p wr).wrAlign.toNat :=
  writePlain_carry (writePacket_plain hplain ▸ h)

/-- The plain stream writer accepts every packet that passes the checks (43_serializer.md R242). -/
theorem writePacket_plain_ne_error (hv : validate s.xlen p = none) (e : ErrCode) : writePacket s p ≠ .error e := by
  rw [writePacket_plain hplain]
  rcases writePlain_cases s.xlen p s.wrAlign s.wrCarry with ⟨e', hv', -⟩ | ⟨-, wr, h, -⟩
  · simp [hv] at hv'
  · simp [h]

end

/-- The flush pads the started byte with 0 bits (20_memory.md R77). -/
theorem flushWriter_stream {s : State} (hcarry : s.wrCarry.toNat < 2 ^ s.wrAlign.toNat) :
    ∃ pad < 8, s.flushWriter.stream = s.stream ++ List.replicate pad false := by
  by_cases h : s.wrAlign = 0
  · exact ⟨0, by decide, by simp [State.flushWriter, h]⟩
  · have hpos : s.wrAlign.toNat ≠ 0 := fun h0 => h (BitVec.eq_of_toNat_eq h0)
    have hlt := s.wrAlign.isLt
    have hbyte : bitsOf 8 (s.wrCarry.zeroExtend 8).toNat
        = bitsOf s.wrAlign.toNat s.wrCarry.toNat ++ List.replicate (8 - s.wrAlign.toNat) false := by
      rw [← bitsOf_add_of_lt _ hcarry, Nat.add_sub_cancel' (by omega), toNat_carry_byte]
    refine ⟨8 - s.wrAlign.toNat, by omega, ?_⟩
    simp only [State.flushWriter, if_neg h, State.stream, ofBytes_append, ofBytes, hbyte]
    simp [bitsOf]

/-- Completion pads the stream to whole bytes in OP_END, and does nothing in the other operations (42_encoder_fsm.md
R175 to R177). -/
theorem Prepares.finish_stream {i : Instr} {s w v : State} {pk : Option Packet} {finish : State → State}
    (h : Prepares i s w pk finish) (hcarry : v.wrCarry.toNat < 2 ^ v.wrAlign.toNat) :
    ∃ pad, (finish v).stream = v.stream ++ List.replicate pad false ∧ pad < 8 ∧ (pad ≠ 0 → i = .opEnd)
      ∧ (i = .opEnd → (finish v).wrAlign = 0) ∧ (finish v).wrCarry.toNat < 2 ^ (finish v).wrAlign.toNat := by
  cases h with
  | step instr => exact ⟨0, by simp, by decide, by simp, by simp [instr], hcarry⟩
  | inject instr => exact ⟨0, by simp, by decide, by simp, by simp [instr], hcarry⟩
  | finish instr =>
    obtain ⟨pad, hpad, hstream⟩ := flushWriter_stream hcarry
    refine ⟨pad, hstream, hpad, fun _ => instr, fun _ => State.flushWriter_wrAlign v, ?_⟩
    rw [State.flushWriter_wrAlign, State.flushWriter_wrCarry]
    split
    next h => rwa [h] at hcarry
    next => decide

/-- Settles O20: the packet made ready is written without error, its bits behind the started byte's, and completion
pads. -/
theorem plainStreamIsThePacketsInOrder : Obligations.PlainStreamIsThePacketsInOrder := by
  intro s t i hplain hcarry hreset hconfig h
  rcases exec_worked_or_kept hreset hconfig h with ⟨w, pk, finish, prepares, completes⟩ | ⟨hend, e, q, rfl⟩
  · obtain ⟨hparams, hcfg0, hqueue, hbytes, halign, hwcarry⟩ := prepares.writer_frame
    have hwplain : Cfg0.pulpFraming w.cfg0 = false := hcfg0 ▸ hplain
    have hstream : w.stream = s.stream := by simp only [State.stream, hbytes, halign, hwcarry]
    cases completes with
    | silent =>
      obtain ⟨pad, hfinish, hpad⟩ := prepares.finish_stream (v := w) (by rwa [halign, hwcarry])
      refine ⟨[], pad, by simp, by simp [prepares.finish_packetOut, hqueue], ?_, hpad⟩
      simpa [hstream] using hfinish
    | failed error => exact absurd error (writePacket_plain_ne_error hwplain prepares.validate _)
    | @emitted p wr written =>
      obtain ⟨pad, hfinish, hpad⟩ := prepares.finish_stream (v := w.emitted p wr) (emitted_carry hwplain written)
      have hxlen : w.xlen = s.xlen := by simp only [State.xlen, hcfg0]
      refine ⟨[p], pad, by simp, by simp [prepares.finish_packetOut, State.emitted, hqueue], ?_, hpad⟩
      rw [emitted_stream hwplain written, hstream, hxlen] at hfinish
      simpa using hfinish
  · exact ⟨[], 0, by simp, by simp, by simp [State.stream], by decide, by simp, fun hi => absurd hi hend, hcarry⟩

end Sys2Proof.Machine

/-! # The encoding of packets

A packet's fields read back from its bits (30_encoding.md R96 to R103 against 44_deserializer.md R270 to R279), the PULP
frame and its bytes (30_encoding.md R92), and the instruction that an encoded request stands for (30_encoding.md R91). -/

namespace Sys2Proof.Machine

/-! ### The PULP frame -/

/-- A frame is whole bytes, so that packing it adds no bits (30_encoding.md R92). -/
theorem ofBytes_toBytes_frameOf (b : Bits) : ofBytes (toBytes (frameOf b)) = frameOf b := by
  have hwhole : 8 * bytesFor (frameOf b).length - (frameOf b).length = 0 := by rw [frameOf_length, bytesFor]; omega
  rw [ofBytes_toBytes, hwhole, List.replicate_zero, List.append_nil]

theorem toBytes_frameOf_length (b : Bits) : (toBytes (frameOf b)).length = frameLenOf b.length + 2 := by
  rw [toBytes_length, frameOf_length, ← frameBytes_eq, bytesFor]; omega

/-- The first byte of a frame holds its length field in the low nibble (30_encoding.md R92). -/
theorem frameOf_first_nibble {b : Bits} {first : Byte} {rest : List Byte} (h : toBytes (frameOf b) = first :: rest) :
    first.toNat % 16 = frameLenOf b.length % 16 := by
  have hbits : bitsOf 8 first.toNat ++ ofBytes rest = frameOf b := by rw [← ofBytes_toBytes_frameOf, h, ofBytes]
  have hnibble : bitsOf 4 first.toNat = bitsOf 4 (frameLenOf b.length) := by
    have htake := congrArg (List.take 4) hbits
    rwa [frameOf, List.append_assoc, List.take_left' (bitsOf_length _ _),
      List.take_append_of_le_length (by rw [bitsOf_length]; decide), bitsOf_take 8 4 _ (by decide)] at htake
  have hvalue := congrArg value hnibble
  rwa [value_bitsOf, value_bitsOf] at hvalue

/-- Settles O28: a body of 5 bits or more needs the 2 bytes that a frame has at least. -/
theorem frameHoldsLengthBodyAndFill : Obligations.FrameHoldsLengthBodyAndFill := by
  intro b hb
  have hlen : (4 + b.length + 7) / 8 - 2 = frameLenOf b.length := by
    simp only [frameLenOf, frameBytes, bytesFor, pulpPktLen]; omega
  have hne : b ≠ [] := List.ne_nil_of_length_pos (by omega)
  dsimp only
  rw [hlen]
  refine ⟨b.getLastD false, ?_, ?_, toBytes_frameOf_length b, fun first rest h => frameOf_first_nibble h⟩
  · rw [List.getLast?_eq_some_getLast hne, List.getLastD_eq_getLast?, List.getLast?_eq_some_getLast hne, Option.getD_some]
  · rw [frameOf, frameBytes_eq]

/-- The bits of a frame after its length field: the body, and the fill if there is any. -/
theorem frameOf_drop (b : Bits) : ∃ fill, (frameOf b).drop pulpPktLen = b ++ fill :=
  ⟨_, by rw [frameOf, List.append_assoc, List.drop_left' (bitsOf_length _ _)]⟩

/-- The frame of a body whose length fits the nibble is taken apart into both (44_deserializer.md R281). -/
theorem frameBits_frameOf {b : Bits} {len : BitVec 4} (hlen : len.toNat = frameLenOf b.length) :
    frameBits (toBytes (frameOf b)) = .ok (len, (frameOf b).drop pulpPktLen) := by
  have hcount := toBytes_frameOf_length b
  have hbits := ofBytes_toBytes_frameOf b
  cases hbytes : toBytes (frameOf b) with
  | nil => rw [hbytes, List.length_nil] at hcount; omega
  | cons first rest =>
    have hnibble : frameLen first = len := by
      apply BitVec.eq_of_toNat_eq
      rw [frameLen, BitVec.truncate_eq_setWidth, BitVec.toNat_setWidth, hlen]
      exact (frameOf_first_nibble hbytes).trans (Nat.mod_eq_of_lt (hlen ▸ len.isLt))
    rw [hbytes, ← hlen] at hcount
    simp only [frameBits, hnibble, if_neg (Nat.not_lt.mpr hcount.ge), List.take_of_length_le hcount.le]
    rw [← hbytes, hbits]

/-! ### A plain packet -/

/-- The bits of a packet written at an alignment are read back from it (44_deserializer.md R280). -/
theorem plainBits_toBytes {align : Nat} (halign : align < 8) (carry : Nat) (s : Bits) :
    plainBits (toBytes (bitsOf align carry ++ s)) align s.length = .ok s := by
  have hlen : (bitsOf align carry ++ s).length = align + s.length := by rw [List.length_append, bitsOf_length]
  have hs : ((ofBytes (toBytes (bitsOf align carry ++ s))).drop align).take s.length = s := by
    rw [List.take_drop, ← hlen, take_ofBytes_toBytes, List.drop_left' (bitsOf_length _ _)]
  rw [plainBits, if_neg (by omega), toBytes_length, hlen, if_neg (Nat.lt_irrefl _), hs]

/-! ### Reading a field -/

/-- What PARSE still has before it at position `p` of `s`. -/
def Ahead (s : Bits) (p : Nat) (t : Bits) : Prop := ∃ a : Bits, s = a ++ t ∧ a.length = p

namespace Ahead

variable {s t rest : Bits} {p q w : Nat}

theorem start (hs : s = t) : Ahead s 0 t := ⟨[], hs, rfl⟩

/-- The position after the bits `t`. -/
theorem skip (h : Ahead s p (t ++ rest)) (hq : p + t.length = q) : Ahead s q rest := by
  obtain ⟨a, rfl, rfl⟩ := h
  exact ⟨a ++ t, (List.append_assoc _ _ _).symm, hq ▸ List.length_append⟩

theorem skipField {v : Nat} (h : Ahead s p (bitsOf w v ++ rest)) (hq : p + w = q) : Ahead s q rest :=
  h.skip ((bitsOf_length w v).symm ▸ hq)

theorem skipBit {b : Bool} (h : Ahead s p ([b] ++ rest)) (hq : p + 1 = q) : Ahead s q rest := h.skip hq

theorem le_length (h : Ahead s p (t ++ rest)) : p + t.length ≤ s.length := by
  obtain ⟨a, rfl, rfl⟩ := h
  simp

theorem field_le_length {v : Nat} (h : Ahead s p (bitsOf w v ++ rest)) : p + w ≤ s.length :=
  bitsOf_length w v ▸ h.le_length

theorem readBits_eq {v : Nat} (h : Ahead s p (bitsOf w v ++ rest)) : readBits s p w = v % 2 ^ w := by
  obtain ⟨a, rfl, rfl⟩ := h
  exact readBits_field a rest w v

/-- A number that fits its field is read back as it was. -/
theorem readBits_of_lt {v : Nat} (h : Ahead s p (bitsOf w v ++ rest)) (hv : v < 2 ^ w) : readBits s p w = v :=
  h.readBits_eq.trans (Nat.mod_eq_of_lt hv)

theorem readWord_eq {n : Nat} {v : BitVec n} (h : Ahead s p (bitsOf w v.toNat ++ rest)) (hv : v.toNat < 2 ^ w) :
    BitVec.ofNat n (readBits s p w) = v := by
  rw [h.readBits_of_lt hv, BitVec.ofNat_toNat, BitVec.setWidth_eq]

theorem extBit_eq {b : Bool} (h : Ahead s p ([b] ++ rest)) : extBit s p = b := by
  obtain ⟨a, rfl, rfl⟩ := h
  simp [extBit]

/-- The address field, when it takes all the remaining bits and is sign-consistent (44_deserializer.md R270, R282). -/
theorem readAddress_eq {k : Nat} {v : Word} (h : Ahead s p (bitsOf k v.toNat ++ rest)) (hk : k = min w (s.length - p))
    (hv : signConsistent w k v = true) : readAddress w s p = (k, v) := by
  rw [readAddress, ← hk, h.readBits_eq, ← eq_of_beq hv]

/-- The full map, when it takes all the remaining bits and is sign-consistent (44_deserializer.md R270, R274). -/
theorem readFullMap_eq {k : Nat} {m : BitVec 31} (h : Ahead s 9 (bitsOf k m.toNat ++ rest))
    (hk : k = min 31 (s.length - 9)) (hm : m = BitVec.ofNat 31 (sext 31 k (m.toNat % 2 ^ k))) : readFullMap s = (k, m) := by
  rw [readFullMap, ← hk, h.readBits_eq, ← hm]

end Ahead

theorem require_of_le {α : Type} {n k : Nat} (r : Except ErrCode α) (h : k ≤ n) : require n k r = r :=
  if_neg (Nat.not_lt.mpr h)

/-! ### PARSE by the packet's first fields -/

section

variable {w : Nat} {tv : Bool} {s rest : Bits}

theorem readBits_msgType {m : Nat} (hm : m < 4) (hs : s = bitsOf msgTypeLen m ++ rest) :
    2 ≤ s.length ∧ readBits s 0 msgTypeLen = m ∧ Ahead s 2 rest :=
  have h := Ahead.start hs
  ⟨h.field_le_length, h.readBits_of_lt hm, h.skipField rfl⟩

theorem parse_reservedMsg0 (hs : s = bitsOf msgTypeLen 0 ++ rest) : parse w tv s = .ok Packet.reservedMsg0 := by
  obtain ⟨hlen, hmsg, -⟩ := readBits_msgType (by decide) hs
  rw [parse, require_of_le _ hlen, hmsg]
  rfl

theorem parse_timer {time : BitVec 64} (hs : s = bitsOf msgTypeLen 1 ++ (bitsOf timeLen time.toNat ++ rest)) :
    parse w tv s = .ok (Packet.timer time) := by
  obtain ⟨hlen, hmsg, htime⟩ := readBits_msgType (by decide) hs
  rw [parse, require_of_le _ hlen, hmsg, htime.readWord_eq time.isLt]
  exact require_of_le _ htime.field_le_length

theorem parse_software {userdata : BitVec 32} (hw : 32 ≤ w)
    (hs : s = bitsOf msgTypeLen 3 ++ (bitsOf w userdata.toNat ++ rest)) : parse w tv s = .ok (Packet.software userdata) := by
  obtain ⟨hlen, hmsg, hdata⟩ := readBits_msgType (by decide) hs
  have hfits : userdata.toNat < 2 ^ w := Nat.lt_of_lt_of_le userdata.isLt (Nat.pow_le_pow_right (by decide) hw)
  rw [parse, require_of_le _ hlen, hmsg, hdata.readWord_eq hfits]
  exact require_of_le _ hdata.field_le_length

/-- The two first fields of a trace packet (30_encoding.md R93, R94). -/
theorem readBits_format {f : Nat} (hf : f < 4) (hs : s = bitsOf msgTypeLen 2 ++ (bitsOf formatLen f ++ rest)) :
    readBits s 0 msgTypeLen = 2 ∧ 4 ≤ s.length ∧ readBits s 2 formatLen = f ∧ Ahead s 4 rest := by
  obtain ⟨-, hmsg, hformat⟩ := readBits_msgType (by decide) hs
  exact ⟨hmsg, hformat.field_le_length, hformat.readBits_of_lt hf, hformat.skipField rfl⟩

theorem parse_branch {f : BitVec 2} (hf : f = 0 ∨ f = 1)
    (hs : s = bitsOf msgTypeLen 2 ++ (bitsOf formatLen f.toNat ++ rest)) : parse w tv s = parseBranch w f s := by
  obtain ⟨hmsg, hlen, hformat, -⟩ := readBits_format f.isLt hs
  rw [parse, require_of_le _ (by omega), hmsg]
  refine (require_of_le _ hlen).trans ?_
  rw [hformat]
  rcases hf with rfl | rfl <;> rfl

theorem parse_addrOnly {k : Nat} {v : Word}
    (hs : s = bitsOf msgTypeLen 2 ++ (bitsOf formatLen 2 ++ (bitsOf k v.toNat ++ rest)))
    (hpos : 1 ≤ k) (hk : k = min w (s.length - 4)) (hv : signConsistent w k v = true) :
    parse w tv s = .ok (Packet.addrOnly v k) := by
  obtain ⟨hmsg, hlen, hformat, haddr⟩ := readBits_format (by decide) hs
  rw [parse, require_of_le _ (by omega), hmsg]
  refine (require_of_le _ hlen).trans ?_
  rw [hformat, haddr.readAddress_eq hk hv]
  exact require_of_le _ (by omega)

theorem parse_sync (hs : s = bitsOf msgTypeLen 2 ++ (bitsOf formatLen 3 ++ rest)) : parse w tv s = parseSync w tv s := by
  obtain ⟨hmsg, hlen, hformat, -⟩ := readBits_format (by decide) hs
  rw [parse, require_of_le _ (by omega), hmsg]
  refine (require_of_le _ hlen).trans ?_
  rw [hformat]
  rfl

/-! ### BRANCH packets -/

/-- The outcomes and the address of a BRANCH packet (30_encoding.md R96, 44_deserializer.md R272, R273). -/
theorem parse_branchOutcomes {f : BitVec 2} {b mb k : Nat} {m : BitVec 31} {v : Word} (hf : f = 0 ∨ f = 1)
    (hs : s = bitsOf msgTypeLen 2 ++ (bitsOf formatLen f.toNat ++ (bitsOf branchLen b ++ (bitsOf (bml b) m.toNat
      ++ (bitsOf k v.toNat ++ rest)))))
    (hb : 1 ≤ b ∧ b ≤ 31) (hmb : mb = bml b) (hm : m.toNat < 2 ^ mb) (hpos : 1 ≤ k)
    (hk : k = min w (s.length - (9 + mb))) (hv : signConsistent w k v = true) :
    parse w tv s = .ok { Packet.zero with
      msgType := 2, format := f, branches := b, branchMap := m, mapBits := mb, address := v, addrBits := k } := by
  subst hmb
  obtain ⟨-, -, -, hbranches⟩ := readBits_format f.isLt hs
  have hmap : Ahead s 9 _ := hbranches.skipField rfl
  have haddr : Ahead s (9 + bml b) _ := hmap.skipField rfl
  have hlen : 9 ≤ s.length := hbranches.field_le_length
  rw [parse_branch hf hs, parseBranch, require_of_le _ hlen, hbranches.readBits_of_lt (Nat.lt_succ_of_le hb.2)]
  refine (if_neg (Nat.ne_of_gt hb.1)).trans ((require_of_le _ (by omega)).trans ?_)
  rw [hmap.readWord_eq hm, haddr.readAddress_eq hk hv]

/-- The map of a BRANCH packet without an address (30_encoding.md R96, 44_deserializer.md R274). -/
theorem parse_branchNoaddr {f : BitVec 2} {k : Nat} {m : BitVec 31} (hf : f = 0 ∨ f = 1)
    (hs : s = bitsOf msgTypeLen 2 ++ (bitsOf formatLen f.toNat ++ (bitsOf branchLen 0 ++ (bitsOf k m.toNat ++ rest))))
    (hpos : 1 ≤ k) (hk : k = min 31 (s.length - 9)) (hm : m = BitVec.ofNat 31 (sext 31 k (m.toNat % 2 ^ k))) :
    parse w tv s = .ok { Packet.zero with msgType := 2, format := f, branchMap := m, mapBits := k } := by
  obtain ⟨-, -, -, hbranches⟩ := readBits_format f.isLt hs
  have hmap : Ahead s 9 _ := hbranches.skipField rfl
  have hlen : 9 ≤ s.length := hbranches.field_le_length
  rw [parse_branch hf hs, parseBranch, require_of_le _ hlen, hbranches.readBits_of_lt (by decide)]
  refine (if_pos rfl).trans ((require_of_le _ (by omega)).trans ?_)
  rw [hmap.readFullMap_eq hk hm]

/-! ### SYNC packets -/

/-- The fields that all SYNC packets begin with (30_encoding.md R95, R98). -/
def syncHeader (subformat : Nat) (privilege : BitVec 3) : Bits :=
  bitsOf msgTypeLen 2 ++ bitsOf formatLen 3 ++ bitsOf subformatLen subformat ++ bitsOf privLen privilege.toNat
    ++ bitsOf syncRsvLen 0

/-- What PARSE reads of a SYNC packet's header, and what it has before it then. -/
theorem parse_syncHeader {n : Nat} {pr : BitVec 3} (hn : n < 4) (hs : s = syncHeader n pr ++ rest) :
    parse w tv s = parseSync w tv s ∧ 6 ≤ s.length ∧ readBits s 4 subformatLen = n
    ∧ BitVec.ofNat 3 (readBits s 6 privLen) = pr ∧ Ahead s 11 rest := by
  have hafter : Ahead s 11 rest := (Ahead.start hs).skip rfl
  simp only [syncHeader, List.append_assoc] at hs
  obtain ⟨-, -, -, hsub⟩ := readBits_format (by decide) hs
  have hpriv : Ahead s 6 _ := hsub.skipField rfl
  exact ⟨parse_sync hs, hsub.field_le_length, hsub.readBits_of_lt hn, hpriv.readWord_eq pr.isLt, hafter⟩

theorem parse_syncContext {pr : BitVec 3} (hs : s = syncHeader 2 pr ++ rest) :
    parse w tv s = .ok (Packet.syncContext pr) := by
  obtain ⟨hsync, hlen, hsub, hpriv, -⟩ := parse_syncHeader (w := w) (tv := tv) (by decide) hs
  rw [hsync, parseSync, require_of_le _ hlen, hsub, hpriv]
  rfl

theorem parse_syncReserved {pr : BitVec 3} (hs : s = syncHeader 3 pr ++ rest) :
    parse w tv s = .ok (Packet.syncReserved pr) := by
  obtain ⟨hsync, hlen, hsub, hpriv, -⟩ := parse_syncHeader (w := w) (tv := tv) (by decide) hs
  rw [hsync, parseSync, require_of_le _ hlen, hsub, hpriv]
  rfl

theorem parse_syncStart {pr : BitVec 3} {br : Bool} {v : Word}
    (hs : s = syncHeader 0 pr ++ ([br] ++ (bitsOf w v.toNat ++ rest))) (hv : v.toNat < 2 ^ w) :
    parse w tv s = .ok (Packet.syncStart w pr br v) := by
  obtain ⟨hsync, hlen, hsub, hpriv, hbr⟩ := parse_syncHeader (w := w) (tv := tv) (by decide) hs
  have haddr : Ahead s 12 _ := hbr.skipBit rfl
  rw [hsync, parseSync, require_of_le _ hlen, hsub, hpriv, hbr.extBit_eq, haddr.readWord_eq hv]
  exact require_of_le _ haddr.field_le_length

theorem parse_syncException {pr : BitVec 3} {br it : Bool} {v x : Word} {cause : BitVec 5}
    (hs : s = syncHeader 1 pr ++ ([br] ++ (bitsOf w v.toNat ++ (bitsOf causeLen cause.toNat ++ ([it]
      ++ ((if tv then bitsOf w x.toNat else []) ++ rest))))))
    (hv : v.toNat < 2 ^ w) (hx : x.toNat < 2 ^ w) (hx0 : tv = true ∨ x = 0) :
    parse w tv s = .ok (Packet.syncException w pr br v cause it x) := by
  obtain ⟨hsync, hlen, hsub, hpriv, hbr⟩ := parse_syncHeader (w := w) (tv := tv) (by decide) hs
  have haddr : Ahead s 12 _ := hbr.skipBit rfl
  have hcause : Ahead s (12 + w) _ := haddr.skipField rfl
  have hit : Ahead s (17 + w) _ := hcause.skipField (Nat.add_right_comm 12 w 5)
  have hrest : Ahead s (18 + w) _ := hit.skipBit (Nat.add_right_comm 17 w 1)
  have htval : 18 + w + (if tv then w else 0) ≤ s.length
      ∧ (if tv then BitVec.ofNat 64 (readBits s (18 + w) w) else 0) = x := by
    cases tv with
    | false => exact ⟨hrest.le_length, (hx0.resolve_left Bool.false_ne_true).symm⟩
    | true => exact ⟨hrest.field_le_length, hrest.readWord_eq hx⟩
  rw [hsync, parseSync, require_of_le _ hlen, hsub, hpriv, hbr.extBit_eq, haddr.readWord_eq hv, hcause.readWord_eq cause.isLt,
    hit.extBit_eq, htval.2]
  exact require_of_le _ htval.1

end

/-! ### Well-formed fields, kind by kind -/

section

variable {w : Nat} {tv : Bool} {p : Packet}

theorem fieldsOk_branch (hk : p.kind = .branchFull ∨ p.kind = .branchDiff) : p.fieldsOk w tv = true ↔
    (1 ≤ p.branches ∧ p.branches ≤ 31) ∧ p.mapBits = bml p.branches ∧ p.branchMap.toNat < 2 ^ p.mapBits
    ∧ (1 ≤ p.addrBits ∧ p.addrBits ≤ w) ∧ signConsistent w p.addrBits p.address = true := by
  rcases hk with hk | hk <;> simp [Packet.fieldsOk, hk, and_assoc]

theorem fieldsOk_branchNoaddr (hk : p.kind = .branchFullNoaddr ∨ p.kind = .branchDiffNoaddr) : p.fieldsOk w tv = true ↔
    (1 ≤ p.mapBits ∧ p.mapBits ≤ 31)
    ∧ p.branchMap = BitVec.ofNat 31 (sext 31 p.mapBits (p.branchMap.toNat % 2 ^ p.mapBits)) := by
  rcases hk with hk | hk <;> simp [Packet.fieldsOk, hk]

theorem fieldsOk_addrOnly (hk : p.kind = .addrOnly) : p.fieldsOk w tv = true ↔
    (1 ≤ p.addrBits ∧ p.addrBits ≤ w) ∧ signConsistent w p.addrBits p.address = true := by
  simp [Packet.fieldsOk, hk]

theorem fieldsOk_syncStart (hk : p.kind = .syncStart) : p.fieldsOk w tv = true ↔ p.address.toNat < 2 ^ w := by
  simp [Packet.fieldsOk, hk]

theorem fieldsOk_syncException (hk : p.kind = .syncException) : p.fieldsOk w tv = true ↔
    p.address.toNat < 2 ^ w ∧ p.tval.toNat < 2 ^ w ∧ (tv = true ∨ p.tval = 0) := by
  simp [Packet.fieldsOk, hk, and_assoc]

/-- A well-formed packet of a kind that is not reserved passes the serializer's checks (43_serializer.md R231). -/
theorem validate_of_fieldsOk (h : p.fieldsOk w tv = true) (hres : p.reservedError = none) : validate w p = none := by
  have hbranch (hk : p.kind = .branchFull ∨ p.kind = .branchDiff) :
      ¬ 31 < p.branches ∧ ¬ (p.mapBits ≠ bml p.branches ∨ p.addrBits < 1 ∨ w < p.addrBits) := by
    obtain ⟨hb, hmb, -, hk, -⟩ := (fieldsOk_branch hk).mp h
    omega
  have hnoaddr (hk : p.kind = .branchFullNoaddr ∨ p.kind = .branchDiffNoaddr) : ¬ (p.mapBits < 1 ∨ 31 < p.mapBits) := by
    obtain ⟨hmb, -⟩ := (fieldsOk_branchNoaddr hk).mp h
    omega
  simp only [validate, hres]
  cases hk : p.kind with
  | branchFull => exact (if_neg (hbranch (.inl hk)).1).trans (if_neg (hbranch (.inl hk)).2)
  | branchDiff => exact (if_neg (hbranch (.inr hk)).1).trans (if_neg (hbranch (.inr hk)).2)
  | branchFullNoaddr => exact if_neg (hnoaddr (.inl hk))
  | branchDiffNoaddr => exact if_neg (hnoaddr (.inr hk))
  | addrOnly =>
    obtain ⟨hk, -⟩ := (fieldsOk_addrOnly hk).mp h
    exact if_neg (by omega)
  | _ => rfl

/-- BITS'(P) is the length of a well-formed packet's bits, of the reserved kinds too (30_encoding.md R108). -/
theorem packetBits_length_of_fieldsOk (h : p.fieldsOk w tv = true) : (packetBits w tv p).length = p.pulpBodyLen w tv := by
  cases hk : p.kind with
  | syncContext | syncReserved | reservedMsg0 => simp only [packetBits, Packet.pulpBodyLen, Packet.bitLen, hk]; rfl
  | _ => exact pulpBody_length w tv p (validate_of_fieldsOk h (by simp only [Packet.reservedError, hk]))

/-- BITS(P) is BITS'(P) with the tval field (30_encoding.md R107, R108). -/
theorem bitLen_eq_pulpBodyLen : p.bitLen w = p.pulpBodyLen w true := by
  cases hk : p.kind with
  | syncException => simp only [Packet.pulpBodyLen, Packet.bitLen, hk, if_true]; omega
  | _ => simp only [Packet.pulpBodyLen, hk]

end

/-! ### PARSE gives a packet back -/

/-- In a string of `n` bits the packet's variable field takes all the bits to the end, at most W or 31 of them
(44_deserializer.md R270). -/
def Fills (w n : Nat) (p : Packet) : Prop :=
  match p.kind with
  | .branchFull | .branchDiff => p.addrBits = min w (n - (9 + p.mapBits))
  | .branchFullNoaddr | .branchDiffNoaddr => p.mapBits = min 31 (n - 9)
  | .addrOnly => p.addrBits = min w (n - 4)
  | _ => True

theorem fillsFrame_iff (w len : Nat) (p : Packet) : p.fillsFrame w len = true ↔ Fills w (8 * (len + 2) - pulpPktLen) p := by
  unfold Packet.fillsFrame Fills
  cases p.kind <;> simp

/-- A packet without fill has the variable field at its end. -/
theorem fills_of_fieldsOk {w : Nat} {tv : Bool} {p : Packet} (h : p.fieldsOk w tv = true) :
    Fills w (p.pulpBodyLen w tv) p := by
  unfold Fills Packet.pulpBodyLen Packet.bitLen
  cases hk : p.kind with
  | branchFull => have := (fieldsOk_branch (.inl hk)).mp h; simp only; omega
  | branchDiff => have := (fieldsOk_branch (.inr hk)).mp h; simp only; omega
  | branchFullNoaddr => have := (fieldsOk_branchNoaddr (.inl hk)).mp h; simp only; omega
  | branchDiffNoaddr => have := (fieldsOk_branchNoaddr (.inr hk)).mp h; simp only; omega
  | addrOnly => have := (fieldsOk_addrOnly hk).mp h; simp only; omega
  | _ => trivial

/-- PARSE gives a well-formed packet back from its bits and from its bits with fill (44_deserializer.md R282). -/
theorem parse_packetBits {w : Nat} {tv : Bool} {p : Packet} {s rest : Bits} (hw : 32 ≤ w) (h : p.fieldsOk w tv = true)
    (hs : s = packetBits w tv p ++ rest) (hfill : Fills w s.length p) : parse w tv s = .ok (p.canon w) := by
  unfold Fills at hfill
  unfold packetBits at hs
  unfold Packet.canon
  cases hk : p.kind <;> simp only [hk, List.append_assoc] at hs hfill ⊢
  case branchFull =>
    obtain ⟨hb, hmb, hm, ⟨hpos, -⟩, hv⟩ := (fieldsOk_branch (.inl hk)).mp h
    exact parse_branchOutcomes (.inl rfl) hs hb hmb hm hpos hfill hv
  case branchDiff =>
    obtain ⟨hb, hmb, hm, ⟨hpos, -⟩, hv⟩ := (fieldsOk_branch (.inr hk)).mp h
    exact parse_branchOutcomes (.inr rfl) hs hb hmb hm hpos hfill hv
  case branchFullNoaddr =>
    obtain ⟨⟨hpos, -⟩, hm⟩ := (fieldsOk_branchNoaddr (.inl hk)).mp h
    exact parse_branchNoaddr (.inl rfl) hs hpos hfill hm
  case branchDiffNoaddr =>
    obtain ⟨⟨hpos, -⟩, hm⟩ := (fieldsOk_branchNoaddr (.inr hk)).mp h
    exact parse_branchNoaddr (.inr rfl) hs hpos hfill hm
  case addrOnly =>
    obtain ⟨⟨hpos, -⟩, hv⟩ := (fieldsOk_addrOnly hk).mp h
    exact parse_addrOnly hs hpos hfill hv
  case syncStart => exact parse_syncStart hs ((fieldsOk_syncStart hk).mp h)
  case syncException =>
    obtain ⟨hv, hx, hx0⟩ := (fieldsOk_syncException hk).mp h
    exact parse_syncException hs hv hx hx0
  case syncContext => exact parse_syncContext hs
  case syncReserved => exact parse_syncReserved hs
  case timer => exact parse_timer hs
  case software => exact parse_software hw hs
  case reservedMsg0 => exact parse_reservedMsg0 hs

/-! ### Decoding an encoded instruction -/

/-- A packet row is the row of its packet. -/
theorem eq_plainInstr_of_form {w : Nat} {i : Instr} {k : PacketKind} {u : PlainUse} {p : Packet}
    (h : i.form w = .plain k u p) (hk : p.kind = k) : i = p.plainInstr u := by
  cases i <;> cases h <;> simp only [Packet.plainInstr, hk] <;> rfl

theorem eq_pulpInstr_of_form {w : Nat} {i : Instr} {k : PacketKind} {u : PulpUse} {p : Packet}
    (h : i.form w = .pulp k u p) (hk : p.kind = k) : i = p.pulpInstr u := by
  cases i <;> cases h <;> simp only [Packet.pulpInstr, hk] <;> rfl

/-- A packet's row does not hold the fields that its kind does not use. -/
theorem plainInstr_canon (w : Nat) (u : PlainUse) (p : Packet) : (p.canon w).plainInstr u = p.plainInstr u := by
  simp only [Packet.plainInstr, canon_kind]
  cases hk : p.kind <;> simp only [Packet.canon, hk] <;> rfl

theorem pulpInstr_canon (w : Nat) (u : PulpUse) (p : Packet) : (p.canon w).pulpInstr u = p.pulpInstr u := by
  simp only [Packet.pulpInstr, canon_kind]
  cases hk : p.kind <;> simp only [Packet.canon, hk] <;> rfl

/-- A well-formed plain packet at an alignment decodes to its row (30_encoding.md R91). -/
theorem decode_plain_packet {arch64 : Bool} (tv : Bool) {align n : Nat} {p : Packet}
    (h : p.fieldsOk (xlen arch64) true = true) (halign : align < 8) (hn : n = p.bitLen (xlen arch64)) :
    decode arch64 tv (.plain (toBytes (bitsOf align 0 ++ packetBits (xlen arch64) true p)) align n)
      = .ok (p.plainInstr (.read align n)) := by
  have hlen := packetBits_length_of_fieldsOk h
  have hbits : n = (packetBits (xlen arch64) true p).length := by rw [hn, hlen, bitLen_eq_pulpBodyLen]
  have hparse := parse_packetBits (xlen_ge arch64) h (List.append_nil _).symm (hlen ▸ fills_of_fieldsOk h)
  subst hbits
  simp only [decode, plainBits_toBytes halign, hparse, plainInstr_canon]

/-- The frame of a well-formed packet that it fills decodes to the packet's row (30_encoding.md R92). -/
theorem decode_pulp_packet {arch64 tv : Bool} {len : BitVec 4} {p : Packet} (h : p.fieldsOk (xlen arch64) tv = true)
    (hlen : len.toNat = frameLenOf (p.pulpBodyLen (xlen arch64) tv)) (hfill : p.fillsFrame (xlen arch64) len.toNat = true) :
    decode arch64 tv (.pulp (toBytes (frameOf (packetBits (xlen arch64) tv p))))
      = .ok (p.pulpInstr (.read len)) := by
  rw [← packetBits_length_of_fieldsOk h] at hlen
  obtain ⟨fill, hbody⟩ := frameOf_drop (packetBits (xlen arch64) tv p)
  have hbodylen : ((frameOf (packetBits (xlen arch64) tv p)).drop pulpPktLen).length = 8 * (len.toNat + 2) - pulpPktLen := by
    rw [List.length_drop, frameOf_length, frameBytes_eq, hlen]
  have hparse := parse_packetBits (xlen_ge arch64) h hbody (hbodylen ▸ (fillsFrame_iff _ _ _).mp hfill)
  simp only [decode, frameBits_frameOf hlen, hparse, pulpInstr_canon]

/-- Settles O58: a packet to be read is parsed back from its encoding, and every other instruction is its own request. -/
theorem decodeOfEncodeIsTheInstruction : Obligations.DecodeOfEncodeIsTheInstruction := by
  intro arch64 tv i hwf
  cases hi : i.form (xlen arch64) with
  | plain k u p =>
    cases u with
    | write align carry => simp only [encode, hi, decode]
    | read align n =>
      simp only [Instr.wf, hi, PlainUse.ok, Bool.and_eq_true, decide_eq_true_eq] at hwf
      obtain ⟨⟨hk, hfields⟩, halign, hn⟩ := hwf
      simp only [encode, hi]
      rw [decode_plain_packet tv hfields halign hn, ← eq_plainInstr_of_form hi hk]
  | pulp k u p =>
    cases u with
    | write => simp only [encode, hi, decode]
    | read len =>
      simp only [Instr.wf, hi, PulpUse.ok, Bool.and_eq_true, decide_eq_true_eq] at hwf
      obtain ⟨⟨hk, hfields⟩, hlen, hfill⟩ := hwf
      simp only [encode, hi]
      rw [decode_pulp_packet hfields hlen hfill, ← eq_pulpInstr_of_form hi hk]
  | host => simp only [encode, hi, decode]

end Sys2Proof.Machine

/-! # The branch-map accumulator

The taken test and the recording of an outcome (40_accumulator.md R131 to R133), and the width of a full map (R135), which
rests on what the leading run of a value says of its bits (41_address_packer.md R150). -/

namespace Sys2Proof.Machine

/-! ### Sign-extendable bits -/

/-- Every element of the leading run is the first one. -/
theorem getElem?_of_lt_leadRun {s : Bits} {i : Nat} (hi : i < leadRun s) : s[i]? = s[0]? := by
  cases s with
  | nil => rfl
  | cons b t =>
    cases i with
    | zero => rfl
    | succ j =>
      have hj : j < (t.takeWhile (· == b)).length := by simp only [leadRun] at hi; omega
      have hsame : (t.takeWhile (· == b))[j] = b := by simpa using List.mem_takeWhile_imp (List.getElem_mem hj)
      have hinitial := List.takeWhile_prefix (· == b) (l := t)
      rw [List.getElem?_cons_succ, List.getElem?_cons_zero,
        List.getElem?_eq_getElem (Nat.lt_of_lt_of_le hj hinitial.length_le), ← hinitial.getElem hj, hsame]

/-- The bits that SEB counts equal the most significant one (41_address_packer.md R150). -/
theorem testBit_of_seb {w x i : Nat} (hi : i < w) (htop : w ≤ i + seb w x) : x.testBit i = x.testBit (w - 1) := by
  have hfromTop {j : Nat} (hj : j < w) : (bitsOf w x).reverse[j]? = some (x.testBit (w - 1 - j)) := by
    rw [List.getElem?_reverse (by rwa [bitsOf_length]), bitsOf_length, bitsOf_getElem?, if_pos (by omega)]
  have hrun : w - 1 - i < leadRun (bitsOf w x).reverse := by unfold seb at htop; omega
  have hsame := getElem?_of_lt_leadRun hrun
  rw [hfromTop (by omega), hfromTop (by omega), Option.some_inj] at hsame
  rwa [show w - 1 - (w - 1 - i) = i by omega] at hsame

/-- What is left of an N-bit value above position `a` when all the bits there are `b`. -/
theorem div_two_pow_of_uniform {N a x : Nat} {b : Bool} (hx : x < 2 ^ N)
    (htop : ∀ i, a ≤ i → i < N → x.testBit i = b) : x / 2 ^ a = if b then 2 ^ (N - a) - 1 else 0 := by
  apply Nat.eq_of_testBit_eq
  intro j
  have hpattern : (if b then 2 ^ (N - a) - 1 else 0).testBit j = (b && decide (j + a < N)) := by
    cases b with
    | true => rw [if_pos rfl, Nat.testBit_two_pow_sub_one, Bool.true_and, decide_eq_decide]; omega
    | false => rw [if_neg Bool.false_ne_true, Nat.zero_testBit, Bool.false_and]
  rw [Nat.testBit_div_two_pow, hpattern]
  by_cases hj : j + a < N
  · rw [htop _ (Nat.le_add_left a j) hj, decide_eq_true hj, Bool.and_true]
  · rw [Nat.testBit_lt_two_pow (Nat.lt_of_lt_of_le hx (Nat.pow_le_pow_right (by decide) (Nat.le_of_not_lt hj))),
      decide_eq_false hj, Bool.and_false]

/-- Sign extension gives a value back from its low `a` bits when all the bits from position `a - 1` on are equal
(00_scope.md R9). -/
theorem sext_mod_of_uniform_top {N a x : Nat} (ha : 1 ≤ a) (haN : a ≤ N) (hx : x < 2 ^ N)
    (htop : ∀ i, a ≤ i → i < N → x.testBit i = x.testBit (a - 1)) : sext N a (x % 2 ^ a) = x := by
  have hsign : (x % 2 ^ a).testBit (a - 1) = x.testBit (a - 1) := by
    rw [Nat.testBit_mod_two_pow, decide_eq_true (by omega : a - 1 < a), Bool.true_and]
  have hadded : 2 ^ a * (2 ^ (N - a) - 1) = 2 ^ N - 2 ^ a := by
    rw [Nat.mul_sub, Nat.mul_one, ← Nat.pow_add, Nat.add_sub_cancel' haN]
  have hparts := Nat.mod_add_div x (2 ^ a)
  rw [div_two_pow_of_uniform hx htop] at hparts
  rw [sext, hsign]
  split
  next h => rwa [if_pos h, hadded] at hparts
  next h => rwa [if_neg h] at hparts

/-! ### The width of a full map -/

/-- The bits of a map from the sign bit of its compressed width on are equal: SEB counts them in the map shifted up by one
(40_accumulator.md R135). -/
theorem testBit_of_fullmapBits (bits : BitVec 31) {i : Nat} (hi : i < 31) (htop : fullmapBits true bits ≤ i + 1) :
    bits.toNat.testBit i = bits.toNat.testBit 30 := by
  have hfits : bits.toNat * 2 % 2 ^ 32 = bits.toNat * 2 := Nat.mod_eq_of_lt (by have := bits.isLt; omega)
  have hshift (k : Nat) : (bits.toNat * 2).testBit (k + 1) = bits.toNat.testBit k := by
    rw [Nat.testBit_succ, Nat.mul_div_cancel _ (by decide)]
  simp only [fullmapBits, hfits, if_true] at htop
  have hseb := testBit_of_seb (w := 32) (x := bits.toNat * 2) (i := i + 1) (by omega) (by omega)
  rwa [hshift, hshift] at hseb

/-- Settles O47: the bits that the width drops equal the sign bit that it keeps. -/
theorem fullMapWidthGivesTheMapBack : Obligations.FullMapWidthGivesTheMapBack := by
  intro bits
  obtain ⟨hpos, hle⟩ := fullmapBits_range true bits
  refine ⟨rfl, rfl, hpos, hle, sext_mod_of_uniform_top hpos hle bits.isLt fun i hi hi31 => ?_⟩
  rw [testBit_of_fullmapBits bits hi31 (by omega),
    testBit_of_fullmapBits bits (i := fullmapBits true bits - 1) (by omega) (by omega)]

/-! ### The taken test and the record of an outcome -/

theorem Slot.instrLen_toNat (s : Slot) : s.instrLen.toNat = if s.compressed then 2 else 4 := by
  unfold Slot.instrLen; split <;> rfl

/-- The taken test compares with the fall-through address modulo 2^XLEN; the 64-bit sum has those bits
(40_accumulator.md R132). -/
theorem notTaken_iff {w : Nat} (hw : w ≤ 64) (this next : Slot) : notTaken w this next = true ↔
    (this.iaddr.toNat + (if this.compressed then 2 else 4)) % 2 ^ w = next.iaddr.toNat := by
  rw [notTaken, beq_iff_eq, ← BitVec.toNat_inj, toNat_truncX, BitVec.toNat_add, Slot.instrLen_toNat,
    Nat.mod_mod_of_dvd _ (Nat.pow_dvd_pow 2 hw)]

theorem xlen_le (arch64 : Bool) : xlen arch64 ≤ 64 := by cases arch64 <;> decide

theorem BranchMap.record_cnt {m : BranchMap} (b : Bool) (h : m.cnt.toNat ≤ 30) :
    (m.record b).cnt.toNat = m.cnt.toNat + 1 := by
  rw [BranchMap.record, BitVec.toNat_add]
  exact Nat.mod_eq_of_lt (Nat.succ_le_succ (Nat.succ_le_succ h))

theorem BranchMap.record_getLsbD (m : BranchMap) (b : Bool) {i : Nat} (hi : i < 31) :
    (m.record b).bits.getLsbD i = if i = m.cnt.toNat then b else m.bits.getLsbD i := by
  have hmask : (1#31 <<< m.cnt.toNat).getLsbD i = decide (i = m.cnt.toNat) := by
    rw [← BitVec.twoPow_eq, BitVec.getLsbD_twoPow, ← Bool.decide_and, decide_eq_decide]
    omega
  cases b with
  | true =>
    simp only [BranchMap.record, if_true, BitVec.getLsbD_or, hmask]
    split <;> simp [*]
  | false =>
    simp only [BranchMap.record, Bool.false_eq_true, if_false, BitVec.getLsbD_and, BitVec.getLsbD_not, hmask]
    split <;> simp [*]

/-- Settles O48: the taken test for a width of at most 64, and the two fields of the recorded map. -/
theorem branchOutcomeIsRecordedAtTheCount : Obligations.BranchOutcomeIsRecordedAtTheCount := by
  intro arch64 this next m _ hcnt
  exact ⟨notTaken_iff (xlen_le arch64) this next, fun b => ⟨m.record_cnt b hcnt, fun _ hi => m.record_getLsbD b hi⟩⟩

end Sys2Proof.Machine

/-! # The address packer

SEB read back from the bits of a value (41_address_packer.md R150), and the bits that the packer keeps (R152 to R154). -/

namespace Sys2Proof.Machine

/-! ### SEB as the longest uniform top -/

/-- The leading run takes in every initial stretch whose elements equal the first one. -/
theorem le_leadRun {s : Bits} {k : Nat} (hk : k ≤ s.length) (hsame : ∀ i < k, s[i]? = s[0]?) : k ≤ leadRun s := by
  cases s with
  | nil => exact Nat.le_trans hk (Nat.zero_le _)
  | cons b t =>
    cases k with
    | zero => exact Nat.zero_le _
    | succ j =>
      have hj : j ≤ t.length := Nat.le_of_succ_le_succ hk
      have hall : ∀ a ∈ t.take j, (a == b) = true := by
        intro a ha
        obtain ⟨i, hi, rfl⟩ := List.mem_take_iff_getElem.mp ha
        have hnext := hsame (i + 1) (by omega)
        rw [List.getElem?_cons_succ, List.getElem?_cons_zero, List.getElem?_eq_getElem (by omega),
          Option.some_inj] at hnext
        exact beq_iff_eq.mpr hnext
      have hrun : j ≤ (t.takeWhile (· == b)).length := by
        rw [← List.take_append_drop j t, List.takeWhile_append_of_pos hall, List.length_append,
          List.length_take_of_le hj]
        exact Nat.le_add_right _ _
      rw [leadRun]
      omega

/-- SEB counts `k` bits exactly when the top `k` bits equal the most significant one (41_address_packer.md R150). -/
theorem le_seb_iff {w x k : Nat} (hkw : k ≤ w) :
    k ≤ seb w x ↔ ∀ i, w - k ≤ i → i < w → x.testBit i = x.testBit (w - 1) := by
  constructor
  · intro hk i hi hiw
    exact testBit_of_seb hiw (by omega)
  · intro htop
    refine le_leadRun (by simpa using hkw) fun i hi => ?_
    have hfromTop {j : Nat} (hj : j < w) : (bitsOf w x).reverse[j]? = some (x.testBit (w - 1 - j)) := by
      rw [List.getElem?_reverse (by rwa [bitsOf_length]), bitsOf_length, bitsOf_getElem?, if_pos (by omega)]
    rw [hfromTop (by omega), hfromTop (by omega), htop (w - 1 - i) (by omega) (by omega), Nat.sub_zero]

/-- The quotient holds the top `k` bits: it is all zeros or all ones exactly when these bits are equal. -/
theorem div_two_pow_uniform_iff {w x k : Nat} (hx : x < 2 ^ w) (hkw : k ≤ w) :
    (x / 2 ^ (w - k) = 0 ∨ x / 2 ^ (w - k) = 2 ^ k - 1) ↔ ∃ b, ∀ i, w - k ≤ i → i < w → x.testBit i = b := by
  have hquotient {i : Nat} (hi : w - k ≤ i) : x.testBit i = (x / 2 ^ (w - k)).testBit (i - (w - k)) := by
    rw [Nat.testBit_div_two_pow, Nat.sub_add_cancel hi]
  constructor
  · rintro (hzeros | hones)
    · exact ⟨false, fun i hi _ => by rw [hquotient hi, hzeros, Nat.zero_testBit]⟩
    · exact ⟨true, fun i hi hiw => by
        rw [hquotient hi, hones, Nat.testBit_two_pow_sub_one, decide_eq_true (by omega)]⟩
  · rintro ⟨b, htop⟩
    have hdiv := div_two_pow_of_uniform hx htop
    rw [Nat.sub_sub_self hkw] at hdiv
    cases b with
    | false => exact .inl hdiv
    | true => exact .inr hdiv

/-- Settles O44: the top `k` bits are uniform exactly when they all equal the most significant one, which SEB counts. -/
theorem sebIsTheLongestUniformTop : Obligations.SebIsTheLongestUniformTop := by
  intro w x hw hx
  refine ⟨seb_pos x hw, seb_le w x, fun k hk hkw => ?_⟩
  rw [div_two_pow_uniform_iff hx hkw, le_seb_iff hkw]
  constructor
  · rintro ⟨b, htop⟩ i hi hiw
    rw [htop i hi hiw, htop (w - 1) (by omega) (by omega)]
  · exact fun htop => ⟨_, htop⟩

/-! ### The kept bits -/

/-- LEAD never counts more bits than SEB (41_address_packer.md R154, R157). -/
theorem lead_le_seb (qs : Bool) (w : Nat) (x : Word) : lead qs w x ≤ seb w x.toNat := by
  cases qs with
  | false => exact Nat.le_refl _
  | true => exact quantize_le _

/-- KEEP is the spec's formula, with the subtraction done first (41_address_packer.md R153). -/
theorem keep_eq_min {l w : Nat} (hl : l ≤ w) : keep l w = min w (w - l + 1) := by
  rw [keep, Nat.sub_add_comm hl]

/-- A count of at most SEB drops only copies of the top kept bit, so sign extension gives the value back
(41_address_packer.md R157). -/
theorem sext_mod_keep {w l x : Nat} (hw : 1 ≤ w) (hx : x < 2 ^ w) (hl : l ≤ seb w x) :
    sext w (keep l w) (x % 2 ^ keep l w) = x := by
  have hseb := seb_pos x hw
  obtain ⟨hpos, hle⟩ := keep_range l w hw (Nat.le_trans hl (seb_le w x))
  have hcounted : w ≤ keep l w - 1 + seb w x := by unfold keep; omega
  refine sext_mod_of_uniform_top hpos hle hx fun i hi hiw => ?_
  rw [testBit_of_seb hiw (by omega), testBit_of_seb (i := keep l w - 1) (by omega) hcounted]

/-- Settles O46: LEAD is at most SEB, quantized or not, so the kept bits hold a copy of every bit that is dropped. -/
theorem keptBitsGiveTheValueBack : Obligations.KeptBitsGiveTheValueBack := by
  intro arch64 qs x hx w l
  have hw : 1 ≤ w := Nat.le_trans (by decide) (xlen_ge arch64)
  have hlead : lead qs w x = l := rfl
  have hseb : l ≤ seb w x.toNat := hlead ▸ lead_le_seb qs w x
  have hlw : l ≤ w := Nat.le_trans hseb (seb_le w x.toNat)
  rw [hlead, ← keep_eq_min hlw]
  obtain ⟨hpos, hle⟩ := keep_range l w hw hlw
  exact ⟨rfl, rfl, hpos, hle, sext_mod_keep hw hx hseb⟩

end Sys2Proof.Machine

/-! # The encoder state machine

OP_STEP with a supported record and OP_END shift a slot into the window, run PROCESS and emit its packet. What they share
comes first: the state that the decision table sees, the row it selects, and the emission of the row's packet. -/

namespace Sys2Proof.Machine

/-! ### Which packets fit a frame -/

theorem bml_le (cnt : Nat) : bml cnt ≤ 31 := by
  unfold bml; split_ifs <;> decide

theorem frameLenOf_le_iff (b : Nat) : frameLenOf b ≤ 15 ↔ b ≤ 132 := by
  simp only [frameLenOf, frameBytes, bytesFor, pulpPktLen]; omega

/-- The most body bits of each kind are within the 132 of a frame, but for a SYNC/EXCEPTION with two 64-bit values
(30_encoding.md R108, 43_serializer.md R244). -/
theorem pulpBodyLen_le {arch64 tv : Bool} {p : Packet} (h : validate (xlen arch64) p = none)
    (hfit : p.kind = .syncException → (arch64 && tv) = false) : p.pulpBodyLen (xlen arch64) tv ≤ 132 := by
  have hw : xlen arch64 ≤ 64 := xlen_le arch64
  unfold Packet.pulpBodyLen Packet.bitLen
  cases hk : p.kind with
  | branchFull | branchDiff =>
    have := bml_le p.branches
    simp only [validate, Packet.reservedError, hk] at h
    split_ifs at h
    dsimp only; omega
  | branchFullNoaddr | branchDiffNoaddr | addrOnly =>
    simp only [validate, Packet.reservedError, hk] at h
    split_ifs at h
    dsimp only; omega
  | syncException => cases arch64 <;> cases tv <;> simp [hk, xlen] at hfit ⊢
  | _ => dsimp only; omega

theorem overflows_iff {s : State} :
    s.overflows = true ↔ Cfg0.pulpFraming s.cfg0 = true ∧ s.xlen = 64 ∧ s.params.pulpTval = true := by
  have hxlen : s.xlen = 64 ↔ Cfg0.arch64 s.cfg0 = true := by
    unfold State.xlen; cases Cfg0.arch64 s.cfg0 <;> decide
  rw [State.overflows, Bool.and_eq_true, Bool.and_eq_true, hxlen, and_assoc]

section

variable {s : State} {p : Packet} (hv : validate s.xlen p = none)
include hv

/-- The stream writer accepts a packet that passes the checks, unless it is a SYNC/EXCEPTION that overflows a frame
(42_encoder_fsm.md R203). -/
theorem writePacket_ok_of_fits (hfit : p.kind = .syncException → s.overflows = false) : ∃ wr, writePacket s p = .ok wr := by
  cases hpulp : Cfg0.pulpFraming s.cfg0 with
  | false =>
    cases hwr : writePacket s p with
    | error e => exact absurd hwr (writePacket_plain_ne_error hpulp hv e)
    | ok wr => exact ⟨wr, rfl⟩
  | true =>
    have hlen : p.pulpBodyLen s.xlen s.params.pulpTval ≤ 132 :=
      pulpBodyLen_le hv fun hk => by simpa [State.overflows, hpulp] using hfit hk
    rw [← pulpBody_length _ _ _ hv, ← frameLenOf_le_iff] at hlen
    rcases serPulp_cases s.xlen s.params.pulpTval p with ⟨e, he, -⟩ | ⟨-, hl, -⟩ | ⟨-, -, hser⟩
    · simp [hv] at he
    · omega
    · simp [writePacket, hpulp, hser]

/-- A SYNC/EXCEPTION with two 64-bit values has 146 body bits, too many for a frame (43_serializer.md R244). -/
theorem serPulp_of_overflows (hk : p.kind = .syncException) (hover : s.overflows = true) :
    serPulp s.xlen s.params.pulpTval p = .error .badPacket := by
  obtain ⟨-, hxlen, htval⟩ := overflows_iff.mp hover
  have hlen : p.pulpBodyLen s.xlen s.params.pulpTval = 146 := by simp [Packet.pulpBodyLen, hk, hxlen, htval]
  rw [← pulpBody_length _ _ _ hv] at hlen
  rcases serPulp_cases s.xlen s.params.pulpTval p with ⟨e, he, -⟩ | ⟨-, -, hser⟩ | ⟨-, hl, -⟩
  · simp [hv] at he
  · exact hser
  · rw [frameLenOf_le_iff] at hl; omega

/-- The lengths that such a packet adds; the frame's is 0, since it cannot be built (10_state.md R34). -/
theorem countPacket_of_overflows (hk : p.kind = .syncException) (hover : s.overflows = true) (t : Stats) :
    (t.countPacket s.params s.cfg0 p).payloadBits = bump s.params.statw t.payloadBits 146
    ∧ (t.countPacket s.params s.cfg0 p).pulpBits = bump s.params.statw t.pulpBits 0 := by
  have hpayload : p.bitLen s.xlen = 146 := by simp [Packet.bitLen, hk, (overflows_iff.mp hover).2.1]
  have hframe : pulpFrameBits s.xlen s.params.pulpTval p = 0 := by
    rw [pulpFrameBits, serPulp_of_overflows hv hk hover]
  rw [← hpayload, ← hframe]
  exact ⟨congrArg (bump s.params.statw · _) (Stats.countKind_payloadBits _ _ _),
    congrArg (bump s.params.statw · _) (Stats.countKind_pulpBits _ _ _)⟩

theorem writePacket_of_overflows (hk : p.kind = .syncException) (hover : s.overflows = true) :
    writePacket s p = .error .badPacket := by
  simp [writePacket, (overflows_iff.mp hover).1, serPulp_of_overflows hv hk hover]

end

/-! ### The window shift -/

/-- The state after the slot `n` is shifted in; a slot with a record is counted (42_encoder_fsm.md R174, R176). -/
def State.shifted (s : State) (n : Slot) : State :=
  { s.shiftIn n with stats := if n.q then s.stats.countInstr s.params.statw else s.stats }

/-- How the operation that shifts in `n` completes: OP_END flushes the stream writer (42_encoder_fsm.md R175, R176). -/
def completion (n : Slot) : State → State := if n.q then id else State.flushWriter

/-- The state that the decision table sees: shifted, with the outcome recorded (42_encoder_fsm.md R181). -/
def State.seen (s : State) (n : Slot) : State := { s.shifted n with map := s.mapSeen n }

theorem completion_frame (n : Slot) (v : State) : ∃ (b : List Byte) (al : BitVec 3) (c : BitVec 7),
    completion n v = { v with byteOut := v.byteOut ++ b, wrAlign := al, wrCarry := c } := by
  have hkept : ∃ (b : List Byte) (al : BitVec 3) (c : BitVec 7),
      v = { v with byteOut := v.byteOut ++ b, wrAlign := al, wrCarry := c } :=
    ⟨[], v.wrAlign, v.wrCarry, by rw [List.append_nil]⟩
  cases hq : n.q with
  | true => simpa [completion, hq] using hkept
  | false =>
    simp only [completion, hq, Bool.false_eq_true, if_false, State.flushWriter]
    split
    · exact hkept
    · exact ⟨_, _, _, rfl⟩

theorem shifted_stats (s : State) (n : Slot) : (s.shifted n).stats =
    { s.stats with instrs := if n.q then (s.stats.instrs + 1) % 2 ^ s.params.statw else s.stats.instrs } := by
  unfold State.shifted
  split <;> rfl

theorem exec_of_shifts {s : State} {i : Instr} {n : Slot} (h : Shifts s i n) :
    exec i s = .next (processAndEmit s (s.shifted n) (completion n)) := by
  cases h with
  | record r valid supported =>
    change Host.Outcome.next _ = _
    rw [if_pos valid, supported]
    rfl
  | finish => rfl

/-! ### The selected row -/

section

variable {s : State} {n : Slot}

theorem recordBranch_shifted (s : State) (n : Slot) : (s.shifted n).recordBranch = s.seen n := by
  rw [State.recordBranch_eq, State.recordBranch_map]; rfl

theorem process_of_empty (hq : s.nextSlot.q = false) : (s.shifted n).process = .ok (s.shifted n, none) := by
  have hthis : (s.shifted n).thisSlot.q = false := hq
  simp [State.process, hthis]

theorem process_of_row {row : EmitRow} (hq : s.nextSlot.q = true) (hrow : selectRow (s.seen n) = some row) :
    (s.shifted n).process = (s.seen n).rowAction (s.shifted n).syncBranchBit row := by
  have hthis : (s.shifted n).thisSlot.q = true := hq
  simp [State.process, hthis, recordBranch_shifted, hrow]

theorem process_of_no_row (hq : s.nextSlot.q = true) (hrow : selectRow (s.seen n) = none) :
    (s.shifted n).process = .ok (s.seen n, none) := by
  have hthis : (s.shifted n).thisSlot.q = true := hq
  simp [State.process, hthis, recordBranch_shifted, hrow]

theorem selectRow_after_trap (htrap : s.thisSlot.exception = true) : selectRow (s.seen n) = some .row1 := if_pos htrap

/-- Rows 2 and 3 (42_encoder_fsm.md R185, R186). -/
theorem selectRow_start (hexc : s.thisSlot.exception = false)
    (h : s.thisSlot.ees = true ∧ s.cfg0.getLsbD 4 = true ∨ s.thisSlot.q = false ∨ s.nextSlot.privilegeChange = true) :
    selectRow (s.seen n) = some .row2 ∨ selectRow (s.seen n) = some .row3 := by
  have h1 : (s.seen n).trigger1 = false := hexc
  cases h2 : (s.seen n).trigger2 with
  | true => left; simp [selectRow, h1, h2]
  | false =>
    have hvec : ¬ (s.thisSlot.ees = true ∧ s.cfg0.getLsbD 4 = true) := by
      rw [← Bool.and_eq_true]
      exact ne_true_of_eq_false h2
    have h3 : (s.seen n).trigger3 = true := by
      change (!s.thisSlot.q || false || s.nextSlot.privilegeChange || _) = true
      rcases h.resolve_left hvec with hq | hpriv
      · simp [hq]
      · simp [hpriv]
    right; simp [selectRow, h1, h2, h3]

/-- The rows after the SYNC rows, when none of these holds (42_encoder_fsm.md R187 to R192). -/
theorem selectRow_no_sync (hexc : s.thisSlot.exception = false) (hees : (s.thisSlot.ees && s.cfg0.getLsbD 4) = false)
    (hthis : s.thisSlot.q = true) (hpriv : s.nextSlot.privilegeChange = false) (hresync : s.resyncPend = false) :
    selectRow (s.seen n) =
      if s.thisSlot.unpredDisc then some .row4
      else if n.exception || n.privilegeChange || !n.q then some .row6
      else if (s.mapSeen n).full then some .row7
      else none := by
  have h1 : (s.seen n).trigger1 = false := hexc
  have h2 : (s.seen n).trigger2 = false := hees
  have h3 : (s.seen n).trigger3 = false := by
    change (!s.thisSlot.q || false || s.nextSlot.privilegeChange || (s.resyncPend && _)) = false
    simp [hthis, hpriv, hresync]
  have h5 : (s.seen n).trigger5 = false := by
    change (s.resyncPend && _) = false
    simp [hresync]
  unfold selectRow
  rw [h1, h2, h3, h5]
  rfl

end

/-! ### Completion -/

/-- What PROCESS keeps (42_encoder_fsm.md R179 to R200). -/
theorem process_frame {v w : State} {pk : Option Packet} (h : v.process = .ok (w, pk)) :
    (w.params = v.params ∧ w.cfg0 = v.cfg0) ∧ w.stats = v.stats ∧ w.packetOut = v.packetOut ∧ w.byteOut = v.byteOut
      ∧ w.overflows = v.overflows ∧ w.nextSlot = v.nextSlot ∧ w.status = v.status := by
  cases process_processed h
  exact ⟨⟨rfl, rfl⟩, rfl, rfl, rfl, rfl, rfl, rfl⟩

/-- The packet of a shifting operation is emitted with OK, unless it is a SYNC/EXCEPTION that overflows a frame
(42_encoder_fsm.md R175, R203). -/
theorem Shifts.emits {s w : State} {i : Instr} {n : Slot} {p : Packet} (h : Shifts s i n)
    (hp : (s.shifted n).process = .ok (w, some p)) (hfit : p.kind = .syncException → s.overflows = false) :
    ∃ (st : Stats) (b : List Byte) (al : BitVec 3) (c : BitVec 7) (q : Ports),
      exec i s = .next { w with
        packetOut := s.packetOut ++ [p], stats := st, byteOut := s.byteOut ++ b, wrAlign := al, wrCarry := c, ports := q }
      ∧ q.result = .noError := by
  obtain ⟨-, -, hqueue, hbytes, hover, -, -⟩ := process_frame hp
  obtain ⟨wr, hwr⟩ := writePacket_ok_of_fits (validate_of_process hp) fun hk => hover.trans (hfit hk)
  obtain ⟨b, al, c, hfinish⟩ := completion_frame n (w.emitted p wr)
  have hexec : exec i s = .next (completion n (w.emitted p wr)).done := by
    rw [exec_of_shifts h, processAndEmit, hp]
    dsimp only
    rw [emitPacket, hwr]
    rfl
  refine ⟨(w.emitted p wr).stats, wr.bytes ++ b, al, c, Ports.ok, ?_, rfl⟩
  rw [hexec, hfinish, State.emitted, hqueue, hbytes, List.append_assoc]
  rfl

/-- A SYNC/EXCEPTION that overflows a frame ends a shifting operation with `bad_packet` (42_encoder_fsm.md R203,
60_exceptions.md R314). -/
theorem Shifts.overflows {s w : State} {i : Instr} {n : Slot} {p : Packet} (h : Shifts s i n)
    (hp : (s.shifted n).process = .ok (w, some p)) (hk : p.kind = .syncException) (hover : s.overflows = true) :
    exec i s = .next (s.raise .badPacket ((s.shifted n).stats.countPacket s.params s.cfg0 p)) := by
  obtain ⟨⟨hparams, hcfg0⟩, hstats, -, -, hwover, -, -⟩ := process_frame hp
  have hwr := writePacket_of_overflows (validate_of_process hp) hk (hwover.trans hover)
  rw [exec_of_shifts h, processAndEmit, hp]
  dsimp only
  rw [emitPacket, hwr, hstats, hparams, hcfg0]
  rfl

/-- A shifting operation without a packet answers OK (42_encoder_fsm.md R179, R192). -/
theorem Shifts.silent {s w : State} {i : Instr} {n : Slot} (h : Shifts s i n)
    (hp : (s.shifted n).process = .ok (w, none)) : exec i s = .next (completion n w).done := by
  rw [exec_of_shifts h, processAndEmit, hp]

/-! ### Configuration, and the records that do not enter the window -/

/-- Settles O3: OP_CONFIG writes what `State.configure` writes. -/
theorem opConfigLoadsTheConfiguration : Obligations.OpConfigLoadsTheConfiguration :=
  fun _ _ _ => ⟨Ports.ok, rfl, rfl⟩

/-- Settles O4: `State.configure` keeps nothing that an earlier `State.configure` wrote. -/
theorem resetThenConfigIsConfig : Obligations.ResetThenConfigIsConfig :=
  fun _ _ _ => ⟨_, _, rfl, rfl, rfl, rfl⟩

/-- Settles O7: OP_STEP looks at `valid` first. -/
theorem invalidRecordChangesNothing : Obligations.InvalidRecordChangesNothing := by
  intro s r hvalid
  exact ⟨Ports.ok, by simp [exec, execOpStep, hvalid, State.done], rfl⟩

/-- Settles O8: the operation fails before it shifts the window. -/
theorem unsupportedRecordRaisesBadInstr : Obligations.UnsupportedRecordRaisesBadInstr := by
  intro s r hvalid hclass
  have hclass' : (s.classOf r).isUnsupported = true := hclass
  exact ⟨⟨.badInstr, none, none, none⟩, by simp [exec, execOpStep, hvalid, hclass', State.fail, State.raise], rfl⟩

/-! ### Nothing to process -/

theorem flushWriter_eq (s : State) : s.flushWriter = { s with
    byteOut := if s.wrAlign = 0 then s.byteOut else s.byteOut ++ [s.wrCarry.zeroExtend 8]
    wrAlign := 0, wrCarry := if s.wrAlign = 0 then s.wrCarry else 0 } := by
  by_cases h : s.wrAlign = 0
  · rw [State.flushWriter, if_pos h, if_pos h, if_pos h, ← h]
  · rw [State.flushWriter, if_neg h, if_neg h, if_neg h]

/-- Settles O10: PROCESS does nothing, and the slot of the record is counted. -/
theorem firstRecordOnlyEntersTheWindow : Obligations.FirstRecordOnlyEntersTheWindow := by
  intro s r hvalid hsup hq
  exact ⟨Ports.ok, (Shifts.record r hvalid hsup).silent (process_of_empty hq), rfl⟩

/-- Settles O11: PROCESS does nothing, and the flush pads the started byte. -/
theorem endOfAnEmptyWindowFlushesTheWriter : Obligations.EndOfAnEmptyWindowFlushesTheWriter := by
  intro s hq
  have hbyte : s.wrCarry.zeroExtend 8 = BitVec.ofNat 8 s.wrCarry.toNat := by
    rw [← toNat_carry_byte, BitVec.ofNat_toNat, BitVec.setWidth_eq]
  refine ⟨Ports.ok, (Shifts.finish.silent (process_of_empty hq)).trans ?_, rfl⟩
  rw [completion, if_neg (by decide), flushWriter_eq, ← hbyte]
  rfl

/-! ### The rows -/

/-- Settles O12: row 1 is the first row. -/
theorem recordAfterATrapGetsSyncException : Obligations.RecordAfterATrapGetsSyncException := by
  intro s i n h hq htrap hfit
  exact h.emits (process_of_row hq (selectRow_after_trap htrap)) fun _ => hfit

/-- Settles O13: the SYNC/EXCEPTION of row 1 is counted, and then the stream writer refuses it. -/
theorem oversizedSyncExceptionRaisesBadPacket : Obligations.OversizedSyncExceptionRaisesBadPacket := by
  intro s i n h hq htrap hover
  have hp := process_of_row hq (selectRow_after_trap (n := n) htrap)
  obtain ⟨hpayload, hpulp⟩ := countPacket_of_overflows (s := s) (p := (s.seen n).syncExceptionPacket _)
    rfl rfl hover (s.shifted n).stats
  refine ⟨_, _, h.overflows hp rfl hover, rfl, ?_⟩
  rw [shifted_stats] at hpayload hpulp ⊢
  exact ⟨Stats.countKind_instrs _ _ _, Stats.countKind_pktSyncException _ _ _, hpayload, hpulp⟩

/-- Settles O14: rows 2 and 3 have the same action. -/
theorem firstOrChangedRecordGetsSyncStart : Obligations.FirstOrChangedRecordGetsSyncStart := by
  intro s i n h hq hexc hstart
  have hp : (s.shifted n).process
      = .ok ((s.seen n).syncCommon, some ((s.seen n).syncStartPacket (s.shifted n).syncBranchBit)) := by
    rcases selectRow_start (n := n) hexc hstart with hrow | hrow <;> exact process_of_row hq hrow
  exact h.emits hp nofun

/-- FLUSH's packet, with the packer's choice written as a comparison (42_encoder_fsm.md R194 to R198). -/
theorem flushPacket_eq (s : State) (disc : Bool) : s.flushPacket disc =
    let cnt := s.map.cnt.toNat
    let qs := Cfg0.usePulpSext s.cfg0
    let a := s.thisSlot.iaddr
    if cnt = 0 then
      if Cfg0.fullAddress s.cfg0 then Packet.addrOnly a s.xlen
      else Packet.addrOnly s.flushDiff (keep (lead qs s.xlen s.flushDiff) s.xlen)
    else if cnt = 31 ∧ disc = false then Packet.branchFullNoaddr s.map.bits 31
    else if Cfg0.fullAddress s.cfg0 then Packet.branchFull cnt s.map.bits (bml cnt) a s.xlen
    else if lead qs s.xlen a < lead qs s.xlen s.flushDiff then
      Packet.branchDiff cnt s.map.bits (bml cnt) s.flushDiff (keep (lead qs s.xlen s.flushDiff) s.xlen)
    else Packet.branchFull cnt s.map.bits (bml cnt) a (keep (lead qs s.xlen a) s.xlen) := by
  dsimp only [State.flushPacket, addrKeep, pack]
  split_ifs <;> rfl

/-- FLUSH sends no SYNC packet (42_encoder_fsm.md R194 to R198). -/
theorem flushPacket_format (s : State) (disc : Bool) : (s.flushPacket disc).format ≠ 3 := by
  rw [flushPacket_eq]
  dsimp only
  split_ifs <;> exact nofun

theorem format_of_kind_syncException {p : Packet} (h : p.kind = .syncException) : p.format = 3 := by
  unfold Packet.kind at h
  split_ifs at h
  bv_omega

/-- Settles O15: row 4 flushes with a discontinuity and row 6 without. -/
theorem flushCarriesTheMapAndTheAddress : Obligations.FlushCarriesTheMapAndTheAddress := by
  intro s i n h hq hexc hees hthis hpriv hresync hflush w qs m cnt a d
  have hrow := selectRow_no_sync (n := n) hexc hees hthis hpriv hresync
  have hp : (s.shifted n).process = .ok ((s.seen n).flushState s.thisSlot.unpredDisc,
      some ((s.seen n).flushPacket s.thisSlot.unpredDisc)) := by
    cases hdisc : s.thisSlot.unpredDisc with
    | true =>
      rw [hdisc] at hrow
      exact process_of_row hq hrow
    | false =>
      have hnext : (n.exception || n.privilegeChange || !n.q) = true := by
        simpa [hdisc, or_assoc] using hflush
      rw [hdisc, hnext] at hrow
      exact process_of_row hq hrow
  obtain ⟨st, b, al, c, q, hexec, hok⟩ :=
    h.emits hp fun hk => absurd (format_of_kind_syncException hk) (flushPacket_format _ _)
  rw [flushPacket_eq] at hexec
  exact ⟨st, b, al, c, q, hexec, hok⟩

/-- The doubled map fits 32 bits, so nothing is cut (40_accumulator.md R135). -/
theorem fullmapBits_eq (compress : Bool) (bits : BitVec 31) :
    fullmapBits compress bits = if compress then 32 - min 31 (seb 32 (bits.toNat * 2)) else 31 := by
  have hlt : bits.toNat * 2 < 2 ^ 32 := by omega
  rw [fullmapBits, Nat.mod_eq_of_lt hlt]
  split <;> omega

/-- Settles O16: no earlier row holds, and the seen map is full. -/
theorem fullMapIsSentWithoutAddress : Obligations.FullMapIsSentWithoutAddress := by
  intro s i n h hq hexc hees hthis hpriv hresync hdisc hnexc hnpriv hnq hfull
  have hrow : selectRow (s.seen n) = some .row7 := by
    rw [selectRow_no_sync hexc hees hthis hpriv hresync]
    simp [hdisc, hnexc, hnpriv, hnq, BranchMap.full, hfull]
  have hp : (s.shifted n).process = .ok ((s.seen n).accReset, some (s.seen n).fullmapPacket) := process_of_row hq hrow
  rw [State.fullmapPacket, fullmapBits_eq] at hp
  exact h.emits hp nofun

/-- Settles O17: no row holds, and a record's completion does nothing. -/
theorem predictableRecordOnlyRecordsItsBranch : Obligations.PredictableRecordOnlyRecordsItsBranch := by
  intro s i n h hq hexc hees hthis hpriv hresync hdisc hnexc hnpriv hnq hfull
  have hrow : selectRow (s.seen n) = none := by
    rw [selectRow_no_sync hexc hees hthis hpriv hresync]
    simpa [hdisc, hnexc, hnpriv, hnq, BranchMap.full] using hfull
  refine ⟨Ports.ok, (h.silent (process_of_no_row hq hrow)).trans ?_, rfl⟩
  simp only [completion, State.seen, State.shifted, hnq]
  rfl

/-! ### All rows -/

/-- Settles O18: PROCESS answers no error, and every packet it answers passes the checks. -/
theorem encodeAnswersOkUnlessOversized : Obligations.EncodeAnswersOkUnlessOversized := by
  intro s i n h hfit
  obtain ⟨w, pk, hp, -⟩ := process_ok (s.shifted n)
  obtain ⟨-, -, -, -, -, hnext, hstatus⟩ := process_frame hp
  cases pk with
  | none =>
    obtain ⟨_, _, _, hfinish⟩ := completion_frame n w
    refine ⟨_, h.silent hp, rfl, ?_⟩
    rw [hfinish]
    exact ⟨hnext, hstatus⟩
  | some p =>
    obtain ⟨_, _, _, _, _, hexec, hok⟩ := h.emits hp fun _ => hfit
    exact ⟨_, hexec, hok, hnext, hstatus⟩

end Sys2Proof.Machine

/-! # The serializer

The checks of 43_serializer.md R231, kind by kind and by the code fields; what OP_SER_PLAIN, OP_SER_PULP and the packet
rows answer (R242, R243); and the layouts of R232 to R241. -/

namespace Sys2Proof.Machine

/-! ### The serializer's checks, kind by kind -/

section

variable {w : Nat} {p : Packet}

/-- Checks 5 and 6 of 43_serializer.md R231 on a BRANCH packet with an address. -/
theorem validate_of_branch (hk : p.kind = .branchFull ∨ p.kind = .branchDiff) : validate w p =
    if p.branches ≤ 31 ∧ p.mapBits = bml p.branches ∧ 1 ≤ p.addrBits ∧ p.addrBits ≤ w then none else some .badPacket := by
  have hchecks : validate w p = if 31 < p.branches then some .badPacket
      else if p.mapBits ≠ bml p.branches ∨ p.addrBits < 1 ∨ w < p.addrBits then some .badPacket else none := by
    rcases hk with hk | hk <;> simp only [validate, Packet.reservedError, hk]
  rw [hchecks]
  by_cases hok : p.branches ≤ 31 ∧ p.mapBits = bml p.branches ∧ 1 ≤ p.addrBits ∧ p.addrBits ≤ w
  · rw [if_pos hok, if_neg (by omega), if_neg (by omega)]
  · rw [if_neg hok, ite_eq_left_iff]
    exact fun hb => if_pos (by omega)

/-- Check 6 of 43_serializer.md R231 on a BRANCH packet without an address. -/
theorem validate_of_branchNoaddr (hk : p.kind = .branchFullNoaddr ∨ p.kind = .branchDiffNoaddr) : validate w p =
    if 1 ≤ p.mapBits ∧ p.mapBits ≤ 31 then none else some .badPacket := by
  have hchecks : validate w p = if p.mapBits < 1 ∨ 31 < p.mapBits then some .badPacket else none := by
    rcases hk with hk | hk <;> simp only [validate, Packet.reservedError, hk]
  rw [hchecks, ← ite_not]
  exact if_congr (by omega) rfl rfl

/-- Check 6 of 43_serializer.md R231 on an ADDR_ONLY packet. -/
theorem validate_of_addrOnly (hk : p.kind = .addrOnly) : validate w p =
    if 1 ≤ p.addrBits ∧ p.addrBits ≤ w then none else some .badPacket := by
  simp only [validate, Packet.reservedError, hk]
  rw [← ite_not]
  exact if_congr (by omega) rfl rfl

end

/-! ### The code fields of each kind -/

/-- What the code fields of a packet of each kind hold (30_encoding.md R93 to R95, R111). -/
def HasCodes (p : Packet) : PacketKind → Prop
  | .branchFull => p.msgType = 2 ∧ p.format = 0 ∧ p.branches ≠ 0
  | .branchFullNoaddr => p.msgType = 2 ∧ p.format = 0 ∧ p.branches = 0
  | .branchDiff => p.msgType = 2 ∧ p.format = 1 ∧ p.branches ≠ 0
  | .branchDiffNoaddr => p.msgType = 2 ∧ p.format = 1 ∧ p.branches = 0
  | .addrOnly => p.msgType = 2 ∧ p.format = 2
  | .syncStart => p.msgType = 2 ∧ p.format = 3 ∧ p.subformat = 0
  | .syncException => p.msgType = 2 ∧ p.format = 3 ∧ p.subformat = 1
  | .syncContext => p.msgType = 2 ∧ p.format = 3 ∧ p.subformat = 2
  | .syncReserved => p.msgType = 2 ∧ p.format = 3 ∧ p.subformat = 3
  | .timer => p.msgType = 1
  | .software => p.msgType = 3
  | .reservedMsg0 => p.msgType = 0

/-- A packet's kind is read from its code fields (10_state.md R41). -/
theorem hasCodes_kind (p : Packet) : HasCodes p p.kind := by
  have hcode (v : BitVec 2) : v = 0 ∨ v = 1 ∨ v = 2 ∨ v = 3 := by bv_omega
  rcases hcode p.msgType with hm | hm | hm | hm
  · simp [HasCodes, Packet.kind, hm]
  · simp [HasCodes, Packet.kind, hm]
  · rcases hcode p.format with hf | hf | hf | hf
    · by_cases hb : p.branches = 0 <;> simp [HasCodes, Packet.kind, hm, hf, hb]
    · by_cases hb : p.branches = 0 <;> simp [HasCodes, Packet.kind, hm, hf, hb]
    · simp [HasCodes, Packet.kind, hm, hf]
    · rcases hcode p.subformat with hs | hs | hs | hs <;> simp [HasCodes, Packet.kind, hm, hf, hs]
  · simp [HasCodes, Packet.kind, hm]

/-- The checks of 43_serializer.md R231 that raise `bad_packet`. -/
def Malformed (w : Nat) (p : Packet) : Prop :=
  p.msgType = 0 ∨ (p.msgType = 2 ∧ p.format = 3 ∧ p.subformat = 3)
  ∨ (p.msgType = 2 ∧ (p.format = 0 ∨ p.format = 1) ∧ 31 < p.branches)
  ∨ (p.msgType = 2 ∧ (p.format = 0 ∨ p.format = 1) ∧ 1 ≤ p.branches ∧ p.branches ≤ 31
      ∧ (p.mapBits ≠ bml p.branches ∨ p.addrBits < 1 ∨ w < p.addrBits))
  ∨ (p.msgType = 2 ∧ (p.format = 0 ∨ p.format = 1) ∧ p.branches = 0 ∧ (p.mapBits < 1 ∨ 31 < p.mapBits))
  ∨ (p.msgType = 2 ∧ p.format = 2 ∧ (p.addrBits < 1 ∨ w < p.addrBits))

/-- The packet that raises `unimplemented` (43_serializer.md R231). -/
def IsContext (p : Packet) : Prop := p.msgType = 2 ∧ p.format = 3 ∧ p.subformat = 2

/-- The checks of 43_serializer.md R231 by the code fields. -/
theorem validate_eq (w : Nat) (p : Packet) [Decidable (Malformed w p)] [Decidable (IsContext p)] : validate w p =
    if Malformed w p then some .badPacket else if IsContext p then some .unimplemented else none := by
  have hcodes := hasCodes_kind p
  cases hk : p.kind with
  | branchFull | branchDiff =>
    rw [hk, HasCodes] at hcodes
    have hcontext : ¬ IsContext p := by simp [IsContext, hcodes]
    rw [if_neg hcontext, validate_of_branch (by simp [hk]), ← ite_not]
    refine if_congr ?_ rfl rfl
    simp [Malformed, hcodes]
    omega
  | branchFullNoaddr | branchDiffNoaddr =>
    rw [hk, HasCodes] at hcodes
    have hcontext : ¬ IsContext p := by simp [IsContext, hcodes]
    rw [if_neg hcontext, validate_of_branchNoaddr (by simp [hk]), ← ite_not]
    refine if_congr ?_ rfl rfl
    simp [Malformed, hcodes]
    omega
  | addrOnly =>
    rw [hk, HasCodes] at hcodes
    have hcontext : ¬ IsContext p := by simp [IsContext, hcodes]
    rw [if_neg hcontext, validate_of_addrOnly hk, ← ite_not]
    refine if_congr ?_ rfl rfl
    simp [Malformed, hcodes]
    omega
  | _ =>
    rw [hk, HasCodes] at hcodes
    simp [validate, Packet.reservedError, hk, Malformed, IsContext, hcodes]

theorem validate_of_malformed {w : Nat} {p : Packet} (h : Malformed w p) : validate w p = some .badPacket := by
  classical rw [validate_eq, if_pos h]

theorem validate_of_context {w : Nat} {p : Packet} (h : IsContext p) : validate w p = some .unimplemented := by
  have hne : ¬ Malformed w p := by
    obtain ⟨hm, hf, hs⟩ := h
    simp [Malformed, hm, hf, hs]
  classical rw [validate_eq, if_neg hne, if_pos h]

theorem validate_of_neither {w : Nat} {p : Packet} (hbad : ¬ Malformed w p) (hcontext : ¬ IsContext p) : validate w p = none := by
  classical rw [validate_eq, if_neg hbad, if_neg hcontext]

/-! ### What the serializer answers -/

section

variable {s : State} {p : Packet} {align : Nat} {carry : Byte}

theorem serPlainOp_of_validate (halign : align < 8) (hv : validate s.xlen p = none) :
    serPlainOp p align carry s
      = s.doneSer ⟨toBytes (bitsOf align carry.toNat ++ packetBits s.xlen true p), some (p.bitLen s.xlen)⟩ := by
  rw [serPlainOp, serPlain, if_neg (Nat.not_le.mpr halign), hv]

theorem serPlainOp_of_error (halign : align < 8) {e : ErrCode} (hv : validate s.xlen p = some e) :
    serPlainOp p align carry s = s.fail e := by
  rw [serPlainOp, serPlain, if_neg (Nat.not_le.mpr halign), hv]

theorem serPlainOp_of_misaligned (halign : 8 ≤ align) : serPlainOp p align carry s = s.fail .invalid := by
  rw [serPlainOp, serPlain, if_pos halign]

theorem serPulpOp_of_fits (hv : validate s.xlen p = none)
    (hfit : (packetBits s.xlen s.params.pulpTval p).length ≤ 132) :
    serPulpOp p s = s.doneSer ⟨toBytes (frameOf (packetBits s.xlen s.params.pulpTval p)), none⟩ := by
  rw [serPulpOp, serPulp, hv]
  simp only [if_neg (Nat.not_lt.mpr ((frameLenOf_le_iff _).mpr hfit))]

theorem serPulpOp_of_overflow (hv : validate s.xlen p = none)
    (hlong : 132 < (packetBits s.xlen s.params.pulpTval p).length) : serPulpOp p s = s.fail .badPacket := by
  rw [serPulpOp, serPulp, hv]
  simp only [if_pos (Nat.lt_of_not_le (mt (frameLenOf_le_iff _).mp (Nat.not_le.mpr hlong)))]

theorem serPulpOp_of_error {e : ErrCode} (hv : validate s.xlen p = some e) : serPulpOp p s = s.fail e := by
  rw [serPulpOp, serPulp, hv]

end

/-! ### Which bodies fit a frame -/

theorem State.xlen_eq (s : State) : s.xlen = 32 ∨ s.xlen = 64 := by
  unfold State.xlen
  cases Cfg0.arch64 s.cfg0
  · exact .inl rfl
  · exact .inr rfl

/-- Every packet that passes the checks fits a frame, but for a SYNC/EXCEPTION with two 64-bit values (43_serializer.md R244). -/
theorem packetBits_fits {s : State} {p : Packet} (hv : validate s.xlen p = none)
    (hfit : p.kind = .syncException → s.params.pulpTval = false ∨ s.xlen = 32) :
    (packetBits s.xlen s.params.pulpTval p).length ≤ 132 := by
  rw [pulpBody_length _ _ _ hv]
  refine pulpBodyLen_le hv fun hk => ?_
  rcases hfit hk with htval | hxlen
  · rw [htval, Bool.and_false]
  · have harch : Cfg0.arch64 s.cfg0 = false := by
      cases h : Cfg0.arch64 s.cfg0 with
      | false => rfl
      | true => rw [State.xlen, h] at hxlen; cases hxlen
    rw [harch, Bool.false_and]

/-! ### What an instruction that serializes answers -/

section

variable {i : Instr} {s : State} {p : Packet}

section

variable {k : PacketKind} {align : Nat} {carry : Byte} (hform : i.form s.xlen = .plain k (.write align carry) p) (halign : align < 8)
include hform halign

theorem exec_plain_of_error {e : ErrCode} (hv : validate s.xlen p = some e) : exec i s = .next (s.fail e) := by
  rw [exec_of_form_plain hform, usePlain, serPlainOp_of_error halign hv]

theorem exec_plain_of_validate {b : Bits} (hv : validate s.xlen p = none) (hb : packetBits s.xlen true p = b) :
    exec i s = .next (s.doneSer ⟨toBytes (bitsOf align carry.toNat ++ b), some (p.bitLen s.xlen)⟩) := by
  rw [exec_of_form_plain hform, usePlain, serPlainOp_of_validate halign hv, hb]

end

section

variable {k : PacketKind} (hform : i.form s.xlen = .pulp k .write p)
include hform

theorem exec_pulp_of_error {e : ErrCode} (hv : validate s.xlen p = some e) : exec i s = .next (s.fail e) := by
  rw [exec_of_form_pulp hform, usePulp, serPulpOp_of_error hv]

theorem exec_pulp_of_fits {b : Bits} (hv : validate s.xlen p = none)
    (hfit : p.kind = .syncException → s.params.pulpTval = false ∨ s.xlen = 32)
    (hb : packetBits s.xlen s.params.pulpTval p = b) : exec i s = .next (s.doneSer ⟨toBytes (frameOf b), none⟩) := by
  rw [exec_of_form_pulp hform, usePulp, serPulpOp_of_fits hv (packetBits_fits hv hfit), hb]

end

end

/-- Settles O31: the checks by the code fields, then the length of the frame. -/
theorem serializerChecksInOrder : Obligations.SerializerChecksInOrder := by
  intro s p align carry w trace bad context long
  have hbad (h : bad) : validate s.xlen p = some .badPacket := validate_of_malformed h
  have hcontext (h : context) : validate s.xlen p = some .unimplemented := validate_of_context h
  have hok (h : ¬ bad) (h' : ¬ context) : validate s.xlen p = none := validate_of_neither h h'
  refine ⟨fun h => ⟨_, congrArg Host.Outcome.next (serPlainOp_of_misaligned h), rfl⟩,
    fun h hb => ⟨_, congrArg Host.Outcome.next (serPlainOp_of_error h (hbad hb)), rfl⟩,
    fun h hc => ⟨_, congrArg Host.Outcome.next (serPlainOp_of_error h (hcontext hc)), rfl⟩,
    fun h hb hc => ⟨_, congrArg Host.Outcome.next (serPlainOp_of_validate h (hok hb hc)), rfl, ?_⟩,
    fun hb => ⟨_, congrArg Host.Outcome.next (serPulpOp_of_error (hbad hb)), rfl⟩,
    fun hc => ⟨_, congrArg Host.Outcome.next (serPulpOp_of_error (hcontext hc)), rfl⟩,
    fun hb hc hl => ⟨_, congrArg Host.Outcome.next (serPulpOp_of_overflow (hok hb hc) ?_), rfl⟩,
    fun hb hc hl => ⟨_, congrArg Host.Outcome.next (serPulpOp_of_fits (hok hb hc) ?_), rfl, rfl⟩⟩
  · rw [packetBits_length _ _ (hok hb hc)]
  · exact Nat.lt_of_add_lt_add_left (n := 4) hl
  · exact Nat.le_of_add_le_add_left (a := 4) (Nat.le_of_not_lt hl)

/-- Settles O27: the reserved kinds fail the first checks. -/
theorem reservedPacketsAreNeverWritten : Obligations.ReservedPacketsAreNeverWritten := by
  intro s align carry privilege halign
  exact ⟨⟨_, exec_plain_of_error rfl halign rfl, rfl, rfl⟩, ⟨_, exec_pulp_of_error rfl rfl, rfl, rfl⟩,
    ⟨_, exec_plain_of_error rfl halign rfl, rfl, rfl⟩, ⟨_, exec_pulp_of_error rfl rfl, rfl, rfl⟩,
    ⟨_, exec_plain_of_error rfl halign rfl, rfl, rfl⟩, ⟨_, exec_pulp_of_error rfl rfl, rfl, rfl⟩⟩

/-! ### The rows with a variable field -/

section

variable {w b : Nat} {tv : Bool} (m : BitVec 31) (mb : Nat) (a : Word) (ab : Nat)

theorem kind_branchFull (hb : b ≠ 0) : (Packet.branchFull b m mb a ab).kind = .branchFull := by
  simp [Packet.kind, Packet.branchFull, hb]

theorem kind_branchDiff (hb : b ≠ 0) : (Packet.branchDiff b m mb a ab).kind = .branchDiff := by
  simp [Packet.kind, Packet.branchDiff, hb]

theorem packetBits_branchFull (hb : b ≠ 0) : packetBits w tv (Packet.branchFull b m mb a ab) =
    bitsOf 2 2 ++ bitsOf 2 0 ++ bitsOf 5 b ++ bitsOf (bml b) m.toNat ++ bitsOf ab a.toNat := by
  simp only [packetBits, kind_branchFull m mb a ab hb]
  rfl

theorem packetBits_branchDiff (hb : b ≠ 0) : packetBits w tv (Packet.branchDiff b m mb a ab) =
    bitsOf 2 2 ++ bitsOf 2 1 ++ bitsOf 5 b ++ bitsOf (bml b) m.toNat ++ bitsOf ab a.toNat := by
  simp only [packetBits, kind_branchDiff m mb a ab hb]
  rfl

theorem bitLen_branchFull (hb : b ≠ 0) : (Packet.branchFull b m mb a ab).bitLen w = 9 + mb + ab := by
  simp only [Packet.bitLen, kind_branchFull m mb a ab hb]
  rfl

theorem bitLen_branchDiff (hb : b ≠ 0) : (Packet.branchDiff b m mb a ab).bitLen w = 9 + mb + ab := by
  simp only [Packet.bitLen, kind_branchDiff m mb a ab hb]
  rfl

end

/-- Settles O24: the checks of both formats are the same. -/
theorem plainBranchWithAddressLayout : Obligations.PlainBranchWithAddressLayout := by
  intro s align carry branches branchMap mapBits address addrBits halign hb
  have hfull := kind_branchFull branchMap mapBits address addrBits hb
  have hdiff := kind_branchDiff branchMap mapBits address addrBits hb
  split
  next h =>
    have ⟨_, hmb, _⟩ := h
    refine ⟨⟨_, exec_plain_of_validate rfl halign ((validate_of_branch (.inl hfull)).trans (if_pos h))
        (packetBits_branchFull _ _ _ _ hb), rfl, ?_⟩,
      ⟨_, exec_plain_of_validate rfl halign ((validate_of_branch (.inr hdiff)).trans (if_pos h))
        (packetBits_branchDiff _ _ _ _ hb), rfl, ?_⟩⟩
    · rw [bitLen_branchFull _ _ _ _ hb, hmb]
    · rw [bitLen_branchDiff _ _ _ _ hb, hmb]
  next h =>
    exact ⟨⟨_, exec_plain_of_error rfl halign ((validate_of_branch (.inl hfull)).trans (if_neg h)), rfl⟩,
      ⟨_, exec_plain_of_error rfl halign ((validate_of_branch (.inr hdiff)).trans (if_neg h)), rfl⟩⟩

/-- Settles O25: each of the two fields has one check, of its width. -/
theorem plainMapOnlyAndAddressOnlyLayout : Obligations.PlainMapOnlyAndAddressOnlyLayout := by
  intro s align carry branchMap mapBits address addrBits halign
  constructor
  · split
    next h =>
      exact ⟨⟨_, exec_plain_of_validate rfl halign ((validate_of_branchNoaddr (.inl rfl)).trans (if_pos h)) rfl, rfl, rfl⟩,
        ⟨_, exec_plain_of_validate rfl halign ((validate_of_branchNoaddr (.inr rfl)).trans (if_pos h)) rfl, rfl, rfl⟩⟩
    next h =>
      exact ⟨⟨_, exec_plain_of_error rfl halign ((validate_of_branchNoaddr (.inl rfl)).trans (if_neg h)), rfl⟩,
        ⟨_, exec_plain_of_error rfl halign ((validate_of_branchNoaddr (.inr rfl)).trans (if_neg h)), rfl⟩⟩
  · split
    next h => exact ⟨_, exec_plain_of_validate rfl halign ((validate_of_addrOnly rfl).trans (if_pos h)) rfl, rfl, rfl⟩
    next h => exact ⟨_, exec_plain_of_error rfl halign ((validate_of_addrOnly rfl).trans (if_neg h)), rfl⟩

/-- Settles O29: these kinds fit a frame at every width. -/
theorem pulpBranchAndAddressLayout : Obligations.PulpBranchAndAddressLayout := by
  intro s branches branchMap mapBits address addrBits
  refine ⟨fun hb hle hmb hpos hw => ?_, fun hpos hle => ?_, fun hpos hw => ?_⟩
  · have hfull := kind_branchFull branchMap mapBits address addrBits hb
    have hdiff := kind_branchDiff branchMap mapBits address addrBits hb
    exact ⟨⟨_, exec_pulp_of_fits rfl ((validate_of_branch (.inl hfull)).trans (if_pos ⟨hle, hmb, hpos, hw⟩))
        (fun hk => nomatch hfull.symm.trans hk) (packetBits_branchFull _ _ _ _ hb), rfl, rfl⟩,
      ⟨_, exec_pulp_of_fits rfl ((validate_of_branch (.inr hdiff)).trans (if_pos ⟨hle, hmb, hpos, hw⟩))
        (fun hk => nomatch hdiff.symm.trans hk) (packetBits_branchDiff _ _ _ _ hb), rfl, rfl⟩⟩
  · exact ⟨⟨_, exec_pulp_of_fits rfl ((validate_of_branchNoaddr (.inl rfl)).trans (if_pos ⟨hpos, hle⟩)) nofun rfl, rfl, rfl⟩,
      ⟨_, exec_pulp_of_fits rfl ((validate_of_branchNoaddr (.inr rfl)).trans (if_pos ⟨hpos, hle⟩)) nofun rfl, rfl, rfl⟩⟩
  · exact ⟨_, exec_pulp_of_fits rfl ((validate_of_addrOnly rfl).trans (if_pos ⟨hpos, hw⟩)) nofun rfl, rfl, rfl⟩

/-! ### The rows of fixed length -/

theorem bitsOf_one_toNat (b : Bool) : bitsOf 1 b.toNat = [b] := by cases b <;> rfl

section

variable (w : Nat) (privilege : BitVec 3) (branch : Bool) (address : Word) (cause : BitVec 5) (interrupt : Bool) (tval : Word)

theorem validate_syncException :
    validate w (Packet.syncException w privilege branch address cause interrupt tval) = none := rfl

theorem packetBits_syncException (tv : Bool) :
    packetBits w tv (Packet.syncException w privilege branch address cause interrupt tval) =
      bitsOf 2 2 ++ bitsOf 2 3 ++ bitsOf 2 1 ++ bitsOf 3 privilege.toNat ++ bitsOf 2 0 ++ [branch] ++ bitsOf w address.toNat
        ++ bitsOf 5 cause.toNat ++ [interrupt] ++ (if tv then bitsOf w tval.toNat else []) := rfl

end

/-- Settles O26: these kinds have no check of a width. -/
theorem plainFixedLengthLayout : Obligations.PlainFixedLengthLayout := by
  intro s align carry privilege branch address cause interrupt tval time userdata halign
  simp only [bitsOf_one_toNat]
  exact ⟨⟨_, exec_plain_of_validate rfl halign rfl rfl, rfl, rfl⟩, ⟨_, exec_plain_of_validate rfl halign rfl rfl, rfl, rfl⟩,
    ⟨_, exec_plain_of_validate rfl halign rfl rfl, rfl, rfl⟩, ⟨_, exec_plain_of_validate rfl halign rfl rfl, rfl, rfl⟩⟩

/-- Settles O30: two 64-bit values make the body of a SYNC/EXCEPTION 146 bits long, too long for a frame. -/
theorem pulpFixedLengthLayout : Obligations.PulpFixedLengthLayout := by
  intro s privilege branch address cause interrupt tval time userdata
  simp only [bitsOf_one_toNat]
  refine ⟨⟨_, exec_pulp_of_fits rfl rfl nofun rfl, rfl, rfl⟩, ?_, ⟨_, exec_pulp_of_fits rfl rfl nofun rfl, rfl, rfl⟩,
    ⟨_, exec_pulp_of_fits rfl rfl nofun rfl, rfl, rfl⟩⟩
  split
  next h =>
    have hlong : 132 < (packetBits s.xlen s.params.pulpTval
        (Packet.syncException s.xlen privilege branch address cause interrupt tval)).length := by
      rw [pulpBody_length _ _ _ (validate_syncException ..), h.1, h.2]
      exact (by decide : 132 < 18 + 64 + 64)
    exact ⟨_, congrArg Host.Outcome.next (serPulpOp_of_overflow (validate_syncException ..) hlong), rfl⟩
  next h =>
    have hfit : s.params.pulpTval = false ∨ s.xlen = 32 := by
      rcases s.xlen_eq with hw | hw
      · exact .inr hw
      · exact .inl (Bool.eq_false_iff.mpr fun htv => h ⟨htv, hw⟩)
    exact ⟨_, exec_pulp_of_fits rfl (validate_syncException ..) (fun _ => hfit) (packetBits_syncException ..), rfl, rfl⟩

end Sys2Proof.Machine

/-! # Packets written and read back

The serializer against the deserializer (44_deserializer.md R280 to R282): the packet that PARSE gives for the bits of a
written packet and a frame's fill, and the bytes of that packet. -/

namespace Sys2Proof.Machine

/-! ### Serialized bytes -/

section

variable {s : State} {p : Packet} {align : Nat} {carry : Byte}

/-- Bytes come only from a packet that passes the checks, at an alignment in range. -/
theorem serPlainOp_ser {bytes : List Byte} {n : Nat} (h : (serPlainOp p align carry s).ports.ser = some ⟨bytes, some n⟩) :
    align < 8 ∧ validate s.xlen p = none ∧ n = (packetBits s.xlen true p).length
    ∧ bytes = toBytes (bitsOf align carry.toNat ++ packetBits s.xlen true p) := by
  by_cases halign : align < 8
  · cases hv : validate s.xlen p with
    | some e => rw [serPlainOp_of_error halign hv] at h; cases h
    | none =>
      rw [serPlainOp_of_validate halign hv, ← packetBits_length _ _ hv] at h
      cases h
      exact ⟨halign, rfl, rfl, rfl⟩
  · rw [serPlainOp_of_misaligned (Nat.le_of_not_lt halign)] at h; cases h

/-- A frame comes only from a packet that passes the checks, with a body that fits it. -/
theorem serPulpOp_ser {bytes : List Byte} (h : (serPulpOp p s).ports.ser = some ⟨bytes, none⟩) :
    validate s.xlen p = none ∧ (packetBits s.xlen s.params.pulpTval p).length ≤ 132
    ∧ bytes = toBytes (frameOf (packetBits s.xlen s.params.pulpTval p)) := by
  cases hv : validate s.xlen p with
  | some e => rw [serPulpOp_of_error hv] at h; cases h
  | none =>
    by_cases hfit : (packetBits s.xlen s.params.pulpTval p).length ≤ 132
    · rw [serPulpOp_of_fits hv hfit] at h
      cases h
      exact ⟨rfl, hfit, rfl⟩
    · rw [serPulpOp_of_overflow hv (Nat.lt_of_not_le hfit)] at h; cases h

end

/-! ### What the deserializer answers on written bytes -/

section

variable {s : State} {q : Packet} {align : Nat}

theorem deserialize_of_parse {w : Nat} {tv : Bool} {b : Bits} (hparse : parse w tv b = .ok q) (hres : q.reservedError = none) :
    deserialize w tv b = .ok q := by
  simp only [deserialize, hparse, hres]

/-- A packet written at an alignment is read from where it stands (44_deserializer.md R280). -/
theorem desPlainOp_written {b : Bits} (halign : align < 8) (c : Nat) (hparse : parse s.xlen true b = .ok q)
    (hres : q.reservedError = none) :
    desPlainOp (toBytes (bitsOf align c ++ b)) align b.length s = s.doneDes (plainResult align b.length q) := by
  simp only [desPlainOp, plainBits_toBytes halign, deserialize_of_parse hparse hres]

/-- A frame is read whole: its body and its fill (44_deserializer.md R281). -/
theorem desPulpOp_frame {b : Bits} (hfit : b.length ≤ 132)
    (hparse : parse s.xlen s.params.pulpTval ((frameOf b).drop pulpPktLen) = .ok q) (hres : q.reservedError = none) :
    desPulpOp (toBytes (frameOf b)) s = s.doneDes ⟨q, (toBytes (frameOf b)).length, none⟩ := by
  have hlen : (BitVec.ofNat 4 (frameLenOf b.length)).toNat = frameLenOf b.length :=
    Nat.mod_eq_of_lt (Nat.lt_succ_of_le ((frameLenOf_le_iff _).mpr hfit))
  simp only [desPulpOp, frameBits_frameOf hlen, deserialize_of_parse hparse hres, pulpResult, hlen, toBytes_frameOf_length]

end

/-- Settles O41: a well-formed packet has no fill after it, so PARSE gives it back. -/
theorem plainPacketRoundTrip : Obligations.PlainPacketRoundTrip := by
  intro s p align carry halign hres hfields hcanon
  have hv : validate s.xlen p = none := validate_of_fieldsOk hfields hres
  have hlen : (packetBits s.xlen true p).length = p.pulpBodyLen s.xlen true := packetBits_length_of_fieldsOk hfields
  have hparse : parse s.xlen true (packetBits s.xlen true p) = .ok p := by
    conv_rhs => rw [hcanon]
    exact parse_packetBits (xlen_ge _) hfields (List.append_nil _).symm (hlen ▸ fills_of_fieldsOk hfields)
  have hser := serPlainOp_of_validate (carry := carry) halign hv
  rw [bitLen_eq_pulpBodyLen, ← hlen] at hser
  have hdes := desPlainOp_written halign carry.toNat hparse hres
  exact ⟨_, _, _, _, rfl, congrArg (·.ports.ser) hser, rfl, congrArg (·.ports.des) hdes⟩

/-! ### Sign extension and its bits -/

section

variable {N a a' x : Nat}

/-- Sign extension repeats bit `a - 1` above it (00_scope.md R9). -/
theorem testBit_sext (haN : a ≤ N) (hx : x < 2 ^ a) (i : Nat) :
    (sext N a x).testBit i = if i < a then x.testBit i else x.testBit (a - 1) && decide (i < N) := by
  have hadded : x + (2 ^ N - 2 ^ a) = 2 ^ a * (2 ^ (N - a) - 1) + x := by
    rw [Nat.mul_sub, Nat.mul_one, ← Nat.pow_add, Nat.add_sub_cancel' haN, Nat.add_comm]
  rw [sext]
  cases hsign : x.testBit (a - 1) with
  | true =>
    rw [if_pos rfl, hadded, Nat.testBit_two_pow_mul_add _ hx, Nat.testBit_two_pow_sub_one, Bool.true_and]
    split
    · rfl
    · rw [decide_eq_decide]; omega
  | false =>
    rw [if_neg Bool.false_ne_true, Bool.false_and]
    split
    · rfl
    · exact Nat.testBit_lt_two_pow (Nat.lt_of_lt_of_le hx (Nat.pow_le_pow_right (by decide) (by omega)))

theorem sext_lt (haN : a ≤ N) (hx : x < 2 ^ a) : sext N a x < 2 ^ N := by
  have : 2 ^ a ≤ 2 ^ N := Nat.pow_le_pow_right (by decide) haN
  unfold sext
  split <;> omega

/-- A wider sign extension of a sign-extended value changes nothing (44_deserializer.md R282). -/
theorem sext_sext (ha : 1 ≤ a) (haa : a ≤ a') (haN : a' ≤ N) (hx : x < 2 ^ a) :
    sext N a' (sext N a x % 2 ^ a') = sext N a x := by
  have hsign {i : Nat} (hi : a ≤ i + 1) (hiN : i < N) : (sext N a x).testBit i = x.testBit (a - 1) := by
    rw [testBit_sext (by omega) hx, decide_eq_true hiN, Bool.and_true]
    split
    · rw [show i = a - 1 by omega]
    · rfl
  refine sext_mod_of_uniform_top (by omega) haN (sext_lt (by omega) hx) fun i hi hiN => ?_
  rw [hsign (by omega) hiN, hsign (by omega) (by omega)]

/-- The bits of a sign-extended value are those of the value and copies of the last one. -/
theorem bitsOf_sext (haa : a ≤ a') (haN : a' ≤ N) (hx : x < 2 ^ a) :
    bitsOf a' (sext N a x) = bitsOf a x ++ List.replicate (a' - a) (x.testBit (a - 1)) := by
  apply List.ext_getElem?
  intro i
  rw [bitsOf_getElem?, testBit_sext (by omega) hx, List.getElem?_append, bitsOf_length, bitsOf_getElem?,
    List.getElem?_replicate]
  split_ifs with hia' hia hrep
  · rfl
  · rw [decide_eq_true (by omega), Bool.and_true]
  · omega
  · omega
  · omega
  · rfl

end

/-! ### A field's kept bits, extended -/

/-- The `N`-bit value that the low `a` bits of a field stand for (44_deserializer.md R270). -/
def extend {n : Nat} (N a : Nat) (v : BitVec n) : BitVec n := BitVec.ofNat n (sext N a (v.toNat % 2 ^ a))

theorem signConsistent_iff (w a : Nat) (v : Word) : signConsistent w a v = true ↔ extend w a v = v := by
  rw [signConsistent, beq_iff_eq, extend, eq_comm]

section

variable {n N a a' : Nat} (v : BitVec n)

theorem toNat_extend (haN : a ≤ N) (hNn : N ≤ n) : (extend N a v).toNat = sext N a (v.toNat % 2 ^ a) := by
  have hlt : sext N a (v.toNat % 2 ^ a) < 2 ^ N := sext_lt haN (Nat.mod_lt _ (Nat.two_pow_pos a))
  exact Nat.mod_eq_of_lt (Nat.lt_of_lt_of_le hlt (Nat.pow_le_pow_right (by decide) hNn))

theorem extend_extend (ha : 1 ≤ a) (haa : a ≤ a') (haN : a' ≤ N) (hNn : N ≤ n) : extend N a' (extend N a v) = extend N a v := by
  rw [extend, toNat_extend v (by omega) hNn, sext_sext ha haa haN (Nat.mod_lt _ (Nat.two_pow_pos a)), extend]

/-- A wider field of the extended value holds the narrow field and copies of its last bit. -/
theorem bitsOf_extend (ha : 1 ≤ a) (haa : a ≤ a') (haN : a' ≤ N) (hNn : N ≤ n) :
    bitsOf a' (extend N a v).toNat = bitsOf a v.toNat ++ List.replicate (a' - a) (v.toNat.testBit (a - 1)) := by
  rw [toNat_extend v (by omega) hNn, bitsOf_sext haa haN (Nat.mod_lt _ (Nat.two_pow_pos a)), bitsOf_mod,
    Nat.testBit_mod_two_pow, decide_eq_true (by omega), Bool.true_and]

end

theorem bitsOf_truncX (w : Nat) (v : Word) : bitsOf w (truncX w v).toNat = bitsOf w v.toNat := by
  rw [toNat_truncX, bitsOf_mod]

theorem truncX_lt (w : Nat) (v : Word) : (truncX w v).toNat < 2 ^ w := by
  rw [toNat_truncX]; exact Nat.mod_lt _ (Nat.two_pow_pos w)

theorem truncX_of_lt {w : Nat} {v : Word} (h : v.toNat < 2 ^ w) : truncX w v = v := by
  rw [← BitVec.toNat_inj, toNat_truncX, Nat.mod_eq_of_lt h]

/-- The last bit of a string is that of its last field. -/
theorem getLastD_append_bitsOf (s : Bits) {a : Nat} (v : Nat) (ha : 1 ≤ a) :
    (s ++ bitsOf a v).getLastD false = v.testBit (a - 1) := by
  have hlast : (s ++ bitsOf a v)[s.length + a - 1]? = some (v.testBit (a - 1)) := by
    rw [List.getElem?_append_right (by omega), bitsOf_getElem?, if_pos (by omega)]
    congr 2
    omega
  rw [List.getLastD_eq_getLast?, List.getLast?_eq_getElem?, List.length_append, bitsOf_length, hlast, Option.getD_some]

/-- A bit string that ends in a field goes on with copies of its last bit when the field widens with its extended value. -/
theorem append_bitsOf_extend {n N a a' : Nat} (s : Bits) (v : BitVec n) (ha : 1 ≤ a) (haa : a ≤ a') (haN : a' ≤ N) (hNn : N ≤ n) :
    s ++ bitsOf a' (extend N a v).toNat
      = (s ++ bitsOf a v.toNat) ++ List.replicate (a' - a) ((s ++ bitsOf a v.toNat).getLastD false) := by
  rw [bitsOf_extend v ha haa haN hNn, getLastD_append_bitsOf s _ ha, List.append_assoc]

theorem eq_of_ite_none {α : Type} {c : Prop} [Decidable c] {a : α} (h : (if c then none else some a) = none) : c := by
  by_contra hc
  rw [if_neg hc] at h
  cases h

/-! ### The packet that is read back -/

/-- The packet that a reader finds in a written packet's bits with fill up to `n` bits: the variable field takes in the
fill, and every value is what its kept bits stand for (44_deserializer.md R270, R282). -/
def readBack (w : Nat) (tv : Bool) (n : Nat) (p : Packet) : Packet :=
  match p.kind with
  | .branchFull | .branchDiff =>
    { p with
      branchMap := BitVec.ofNat 31 (p.branchMap.toNat % 2 ^ p.mapBits)
      address := extend w p.addrBits p.address, addrBits := min w (n - (9 + p.mapBits)) }
  | .branchFullNoaddr | .branchDiffNoaddr =>
    { p with branchMap := extend 31 p.mapBits p.branchMap, mapBits := min 31 (n - 9) }
  | .addrOnly => { p with address := extend w p.addrBits p.address, addrBits := min w (n - 4) }
  | .syncStart => { p with address := truncX w p.address }
  | .syncException => { p with address := truncX w p.address, tval := if tv then truncX w p.tval else 0 }
  | _ => p

section

variable {w : Nat} {tv : Bool} {n : Nat} {p : Packet}

theorem readBack_kind (w : Nat) (tv : Bool) (n : Nat) (p : Packet) : (readBack w tv n p).kind = p.kind := by
  unfold readBack
  cases hk : p.kind <;> exact hk

theorem readBack_fills : Fills w n (readBack w tv n p) := by
  unfold Fills
  rw [readBack_kind]
  cases hk : p.kind <;> simp only [readBack, hk]

variable (hw : w ≤ 64) (hv : validate w p = none) (hn : p.pulpBodyLen w tv ≤ n)
include hw hv hn

theorem readBack_fieldsOk : (readBack w tv n p).fieldsOk w tv = true := by
  cases hk : p.kind with
  | branchFull | branchDiff =>
    rw [validate_of_branch (by simp [hk])] at hv
    obtain ⟨hb, hmb, ha⟩ := eq_of_ite_none hv
    simp only [Packet.pulpBodyLen, Packet.bitLen, hk] at hn
    have hb1 : p.branches ≠ 0 := branches_ne_zero_of_kind (by simp [hk])
    have hmap : p.branchMap.toNat % 2 ^ p.mapBits < 2 ^ p.mapBits := Nat.mod_lt _ (Nat.two_pow_pos _)
    rw [fieldsOk_branch (by simp [readBack_kind, hk]), signConsistent_iff]
    simp only [readBack, hk]
    exact ⟨by omega, hmb, Nat.lt_of_le_of_lt (Nat.mod_le _ _) hmap, by omega, extend_extend _ ha.1 (by omega) (by omega) hw⟩
  | branchFullNoaddr | branchDiffNoaddr =>
    rw [validate_of_branchNoaddr (by simp [hk])] at hv
    have hmb := eq_of_ite_none hv
    simp only [Packet.pulpBodyLen, Packet.bitLen, hk] at hn
    rw [fieldsOk_branchNoaddr (by simp [readBack_kind, hk])]
    simp only [readBack, hk]
    exact ⟨by omega, (extend_extend _ hmb.1 (by omega) (by omega) (by omega)).symm⟩
  | addrOnly =>
    rw [validate_of_addrOnly hk] at hv
    have ha := eq_of_ite_none hv
    simp only [Packet.pulpBodyLen, Packet.bitLen, hk] at hn
    rw [fieldsOk_addrOnly (by rw [readBack_kind, hk]), signConsistent_iff]
    simp only [readBack, hk]
    exact ⟨by omega, extend_extend _ ha.1 (by omega) (by omega) hw⟩
  | syncStart =>
    rw [fieldsOk_syncStart (by rw [readBack_kind, hk])]
    simp only [readBack, hk]
    exact truncX_lt w p.address
  | syncException =>
    rw [fieldsOk_syncException (by rw [readBack_kind, hk])]
    simp only [readBack, hk]
    cases tv with
    | true => exact ⟨truncX_lt w p.address, truncX_lt w p.tval, .inl rfl⟩
    | false => exact ⟨truncX_lt w p.address, Nat.two_pow_pos w, .inr rfl⟩
  | _ => simp only [Packet.fieldsOk, readBack_kind, hk]

/-- The packet that is read back has the bits of the written one, and then a part of the fill (44_deserializer.md R282). -/
theorem packetBits_readBack : ∃ j, p.pulpBodyLen w tv + j ≤ n ∧ packetBits w tv (readBack w tv n p)
    = packetBits w tv p ++ List.replicate j ((packetBits w tv p).getLastD false) := by
  have hsame (h : packetBits w tv (readBack w tv n p) = packetBits w tv p) : ∃ j, p.pulpBodyLen w tv + j ≤ n
      ∧ packetBits w tv (readBack w tv n p)
        = packetBits w tv p ++ List.replicate j ((packetBits w tv p).getLastD false) :=
    ⟨0, hn, by rw [h, List.replicate_zero, List.append_nil]⟩
  cases hk : p.kind with
  | branchFull | branchDiff =>
    rw [validate_of_branch (by simp [hk])] at hv
    obtain ⟨-, hmb, ha⟩ := eq_of_ite_none hv
    simp only [Packet.pulpBodyLen, Packet.bitLen, hk] at hn
    have hmap : (BitVec.ofNat 31 (p.branchMap.toNat % 2 ^ p.mapBits)).toNat = p.branchMap.toNat % 2 ^ p.mapBits :=
      Nat.mod_eq_of_lt (Nat.lt_of_le_of_lt (Nat.mod_le _ _) p.branchMap.isLt)
    refine ⟨min w (n - (9 + p.mapBits)) - p.addrBits, by simp only [Packet.pulpBodyLen, Packet.bitLen, hk]; omega, ?_⟩
    simp only [packetBits, readBack_kind, hk]
    simp only [readBack, hk, hmap, ← hmb, bitsOf_mod]
    exact append_bitsOf_extend _ _ ha.1 (by omega) (by omega) hw
  | branchFullNoaddr | branchDiffNoaddr =>
    rw [validate_of_branchNoaddr (by simp [hk])] at hv
    have hmb := eq_of_ite_none hv
    simp only [Packet.pulpBodyLen, Packet.bitLen, hk] at hn
    refine ⟨min 31 (n - 9) - p.mapBits, by simp only [Packet.pulpBodyLen, Packet.bitLen, hk]; omega, ?_⟩
    simp only [packetBits, readBack_kind, hk]
    simp only [readBack, hk]
    exact append_bitsOf_extend _ _ hmb.1 (by omega) (by omega) (Nat.le_refl 31)
  | addrOnly =>
    rw [validate_of_addrOnly hk] at hv
    have ha := eq_of_ite_none hv
    simp only [Packet.pulpBodyLen, Packet.bitLen, hk] at hn
    refine ⟨min w (n - 4) - p.addrBits, by simp only [Packet.pulpBodyLen, Packet.bitLen, hk]; omega, ?_⟩
    simp only [packetBits, readBack_kind, hk]
    simp only [readBack, hk]
    exact append_bitsOf_extend _ _ ha.1 (by omega) (by omega) hw
  | syncStart =>
    refine hsame ?_
    simp only [packetBits, readBack_kind, hk]
    simp only [readBack, hk, bitsOf_truncX]
  | syncException =>
    refine hsame ?_
    simp only [packetBits, readBack_kind, hk]
    simp only [readBack, hk, bitsOf_truncX]
    cases tv with
    | true => simp only [if_true, bitsOf_truncX]
    | false => rfl
  | _ => exact hsame (congrArg _ (by simp only [readBack, hk]))

end

section

variable {w : Nat} {tv : Bool} {n : Nat} {p : Packet}

/-- The reader's packet passes the checks, as the written one does. -/
theorem validate_readBack (hw : w ≤ 64) (hv : validate w p = none) (hn : p.pulpBodyLen w tv ≤ n) :
    validate w ((readBack w tv n p).canon w) = none := by
  rw [validate_canon]
  refine validate_of_fieldsOk (readBack_fieldsOk hw hv hn) ?_
  simpa only [Packet.reservedError, readBack_kind] using validate_none_reserved w p hv

theorem readBack_reservedError (hv : validate w p = none) : ((readBack w tv n p).canon w).reservedError = none := by
  simpa only [Packet.reservedError, canon_kind, readBack_kind] using validate_none_reserved w p hv

/-- PARSE on the bits of a packet and `k` copies of the last one. -/
theorem parse_packetBits_fill {k : Nat} (hw32 : 32 ≤ w) (hw : w ≤ 64) (hv : validate w p = none) (hn : n = p.pulpBodyLen w tv + k) :
    parse w tv (packetBits w tv p ++ List.replicate k ((packetBits w tv p).getLastD false))
      = .ok ((readBack w tv n p).canon w) := by
  have hle : p.pulpBodyLen w tv ≤ n := by omega
  obtain ⟨j, hj, hbits⟩ := packetBits_readBack hw hv hle
  refine parse_packetBits (rest := List.replicate (k - j) ((packetBits w tv p).getLastD false)) hw32
    (readBack_fieldsOk hw hv hle) ?_ ?_
  · rw [hbits, List.append_assoc, List.replicate_append_replicate, Nat.add_sub_cancel' (by omega)]
  · rw [List.length_append, List.length_replicate, pulpBody_length w tv p hv, ← hn]
    exact readBack_fills

end

/-! ### A frame and its fill -/

/-- The body of a frame and its fill, copies of the body's last bit (43_serializer.md R243). -/
theorem frameOf_drop_eq (b : Bits) : (frameOf b).drop pulpPktLen
    = b ++ List.replicate (8 * frameBytes b.length - (pulpPktLen + b.length)) (b.getLastD false) := by
  rw [frameOf, List.append_assoc, List.drop_left' (bitsOf_length _ _)]

theorem getLastD_append_replicate_getLastD (b : Bits) (j : Nat) :
    (b ++ List.replicate j (b.getLastD false)).getLastD false = b.getLastD false := by
  cases j with
  | zero => rw [List.replicate_zero, List.append_nil]
  | succ j => rw [List.replicate_succ', ← List.append_assoc, List.getLastD_concat]

/-- A body that takes in a part of its frame's fill has the same frame. -/
theorem frameOf_append_fill {b : Bits} {j : Nat} (hj : pulpPktLen + b.length + j ≤ 8 * frameBytes b.length) :
    frameOf (b ++ List.replicate j (b.getLastD false)) = frameOf b := by
  have hbytes : frameBytes (b.length + j) = frameBytes b.length := by
    simp only [frameBytes, bytesFor, pulpPktLen] at hj ⊢; omega
  rw [frameOf, frameOf, List.length_append, List.length_replicate, getLastD_append_replicate_getLastD, frameLenOf, frameLenOf,
    hbytes, ← List.append_assoc, List.append_assoc _ (List.replicate j _), List.replicate_append_replicate]
  congr 2
  omega

/-! ### Written bytes, read -/

theorem State.xlen_bounds (s : State) : 32 ≤ s.xlen ∧ s.xlen ≤ 64 := ⟨xlen_ge _, xlen_le _⟩

section

variable {s : State} {p : Packet} (hv : validate s.xlen p = none)
include hv

/-- Reading what OP_SER_PLAIN wrote. -/
theorem desPlainOp_readBack {align : Nat} (halign : align < 8) (c : Nat) :
    desPlainOp (toBytes (bitsOf align c ++ packetBits s.xlen true p)) align (packetBits s.xlen true p).length s
      = s.doneDes (plainResult align (packetBits s.xlen true p).length
          ((readBack s.xlen true (p.pulpBodyLen s.xlen true) p).canon s.xlen)) := by
  have hparse := parse_packetBits_fill (tv := true) (k := 0) s.xlen_bounds.1 s.xlen_bounds.2 hv rfl
  rw [List.replicate_zero, List.append_nil] at hparse
  exact desPlainOp_written halign c hparse (readBack_reservedError hv)

/-- Reading what OP_SER_PULP wrote. -/
theorem desPulpOp_readBack {tv : Bool} (htv : s.params.pulpTval = tv) (hfit : (packetBits s.xlen tv p).length ≤ 132) :
    desPulpOp (toBytes (frameOf (packetBits s.xlen tv p))) s
      = s.doneDes ⟨(readBack s.xlen tv (8 * frameBytes (p.pulpBodyLen s.xlen tv) - pulpPktLen) p).canon s.xlen,
          (toBytes (frameOf (packetBits s.xlen tv p))).length, none⟩ := by
  subst htv
  refine desPulpOp_frame hfit ?_ (readBack_reservedError hv)
  have hroom := frameBytes_room (packetBits s.xlen s.params.pulpTval p).length
  rw [frameOf_drop_eq]
  refine parse_packetBits_fill s.xlen_bounds.1 s.xlen_bounds.2 hv ?_
  rw [← pulpBody_length _ _ _ hv]
  omega

end

/-- Settles O43: the packet that is read back has the written one's bits, and in a frame a part of its fill. -/
theorem serializingAParsedPacketAgain : Obligations.SerializingAParsedPacketAgain := by
  intro s t u v p
  refine ⟨fun align carry bytes n o ht hser hu hdes hv => ?_, fun bytes o ht hser hu hdes hv => ?_⟩
  · cases ht; cases hu; cases hv
    obtain ⟨halign, hvalid, rfl, rfl⟩ := serPlainOp_ser hser
    rw [desPlainOp_readBack hvalid halign] at hdes
    cases hdes
    have hq := validate_readBack (tv := true) s.xlen_bounds.2 hvalid (Nat.le_refl _)
    obtain ⟨j, hj, hbits⟩ := packetBits_readBack (tv := true) s.xlen_bounds.2 hvalid (Nat.le_refl _)
    rw [show j = 0 by omega, List.replicate_zero, List.append_nil, ← packetBits_canon] at hbits
    simp only [plainResult]
    rw [serPlainOp_of_validate halign hq, ← packetBits_length _ _ hq, hbits]
    rfl
  · cases ht; cases hu; cases hv
    obtain ⟨hvalid, hfit, rfl⟩ := serPulpOp_ser hser
    rw [desPulpOp_readBack hvalid rfl hfit] at hdes
    cases hdes
    have hlen := pulpBody_length s.xlen s.params.pulpTval p hvalid
    have hroom := frameBytes_room (p.pulpBodyLen s.xlen s.params.pulpTval)
    have hn : p.pulpBodyLen s.xlen s.params.pulpTval ≤ 8 * frameBytes (p.pulpBodyLen s.xlen s.params.pulpTval) - pulpPktLen := by
      omega
    have hq := validate_readBack s.xlen_bounds.2 hvalid hn
    obtain ⟨j, hj, hbits⟩ := packetBits_readBack s.xlen_bounds.2 hvalid hn
    rw [← packetBits_canon] at hbits
    have hqfit : (packetBits s.xlen s.params.pulpTval ((readBack s.xlen s.params.pulpTval
        (8 * frameBytes (p.pulpBodyLen s.xlen s.params.pulpTval) - pulpPktLen) p).canon s.xlen)).length ≤ 132 := by
      rw [hbits, List.length_append, List.length_replicate, hlen]
      simp only [hlen, frameBytes, bytesFor, pulpPktLen] at hfit hj ⊢
      omega
    rw [serPulpOp_of_fits hq hqfit, hbits, frameOf_append_fill (by rw [hlen]; omega)]
    rfl

/-! ### The read packet of a well-formed one -/

section

variable {w : Nat} {tv : Bool} {n : Nat} {p : Packet}

/-- Only the widths of the variable field, and a tval that the frame does not carry, can differ from a well-formed packet
(44_deserializer.md R282). -/
theorem readBack_of_fieldsOk (h : p.fieldsOk w true = true) : (readBack w tv n p).canon w = { p.canon w with
    mapBits := ((readBack w tv n p).canon w).mapBits, addrBits := ((readBack w tv n p).canon w).addrBits
    tval := if tv then (p.canon w).tval else 0 } := by
  cases hk : p.kind with
  | branchFull | branchDiff =>
    obtain ⟨-, -, hm, -, haddr⟩ := (fieldsOk_branch (by simp [hk])).mp h
    have hmap : BitVec.ofNat 31 (p.branchMap.toNat % 2 ^ p.mapBits) = p.branchMap := by
      rw [Nat.mod_eq_of_lt hm, BitVec.ofNat_toNat, BitVec.setWidth_eq]
    simp only [Packet.canon, readBack_kind, hk]
    simp only [readBack, hk, hmap, (signConsistent_iff _ _ _).mp haddr]
    cases tv <;> rfl
  | branchFullNoaddr | branchDiffNoaddr =>
    have hmap : extend 31 p.mapBits p.branchMap = p.branchMap := ((fieldsOk_branchNoaddr (by simp [hk])).mp h).2.symm
    simp only [Packet.canon, readBack_kind, hk]
    simp only [readBack, hk, hmap]
    cases tv <;> rfl
  | addrOnly =>
    simp only [Packet.canon, readBack_kind, hk]
    simp only [readBack, hk, (signConsistent_iff _ _ _).mp ((fieldsOk_addrOnly hk).mp h).2]
    cases tv <;> rfl
  | syncStart =>
    simp only [Packet.canon, readBack_kind, hk]
    simp only [readBack, hk, truncX_of_lt ((fieldsOk_syncStart hk).mp h)]
    cases tv <;> rfl
  | syncException =>
    obtain ⟨ha, hx, -⟩ := (fieldsOk_syncException hk).mp h
    simp only [Packet.canon, readBack_kind, hk]
    simp only [readBack, hk, truncX_of_lt ha, truncX_of_lt hx]
    rfl
  | _ =>
    have hsame : readBack w tv n p = p := by simp only [readBack, hk]
    rw [hsame]
    simp only [Packet.canon, hk]
    cases tv <;> rfl

/-- The variable field only grows, to at most 31 map bits and XLEN address bits. -/
theorem readBack_widths (h : p.fieldsOk w true = true) (hn : p.pulpBodyLen w tv ≤ n) :
    (p.canon w).mapBits ≤ ((readBack w tv n p).canon w).mapBits ∧ ((readBack w tv n p).canon w).mapBits ≤ 31
    ∧ (p.canon w).addrBits ≤ ((readBack w tv n p).canon w).addrBits ∧ ((readBack w tv n p).canon w).addrBits ≤ w := by
  cases hk : p.kind with
  | branchFull | branchDiff =>
    obtain ⟨-, hmb, -, ha, -⟩ := (fieldsOk_branch (by simp [hk])).mp h
    have hmap := bml_le p.branches
    simp only [Packet.pulpBodyLen, Packet.bitLen, hk] at hn
    simp only [Packet.canon, readBack_kind, hk]
    simp only [readBack, hk, Packet.branchFull, Packet.branchDiff]
    omega
  | branchFullNoaddr | branchDiffNoaddr =>
    obtain ⟨hmb, -⟩ := (fieldsOk_branchNoaddr (by simp [hk])).mp h
    simp only [Packet.pulpBodyLen, Packet.bitLen, hk] at hn
    simp only [Packet.canon, readBack_kind, hk]
    simp only [readBack, hk, Packet.branchFullNoaddr, Packet.branchDiffNoaddr, Packet.zero]
    omega
  | addrOnly =>
    obtain ⟨ha, -⟩ := (fieldsOk_addrOnly hk).mp h
    simp only [Packet.pulpBodyLen, Packet.bitLen, hk] at hn
    simp only [Packet.canon, readBack_kind, hk]
    simp only [readBack, hk, Packet.addrOnly, Packet.zero]
    omega
  | syncStart | syncException =>
    simp only [Packet.canon, readBack_kind, hk]
    exact ⟨Nat.zero_le _, Nat.zero_le _, Nat.le_refl w, Nat.le_refl w⟩
  | _ =>
    simp only [Packet.canon, readBack_kind, hk]
    exact ⟨Nat.zero_le _, Nat.zero_le _, Nat.zero_le _, Nat.zero_le w⟩

end

/-- Settles O42: the frame's fill is copies of the variable field's sign bit, which that field takes in. -/
theorem pulpPacketRoundTrip : Obligations.PulpPacketRoundTrip := by
  intro s p hres hfields hcanon hfits
  have hv : validate s.xlen p = none := validate_of_fieldsOk hfields hres
  have hfit := packetBits_fits hv hfits
  have hser := serPulpOp_of_fits hv hfit
  have hdes := desPulpOp_readBack hv rfl hfit
  have hroom := frameBytes_room (p.pulpBodyLen s.xlen s.params.pulpTval)
  rw [readBack_of_fieldsOk hfields, ← hcanon] at hdes
  obtain ⟨hmap, hmap31, haddr, haddrw⟩ := readBack_widths (tv := s.params.pulpTval) hfields (Nat.le_sub_of_add_le' hroom)
  rw [← hcanon] at hmap haddr
  exact ⟨_, _, _, _, _, rfl, congrArg (·.ports.ser) hser, rfl, congrArg (·.ports.des) hdes, hmap, hmap31, haddr, haddrw⟩

/-! ### Words of the spec -/

/-- The encoding of a well-formed instruction decodes to it (30_encoding.md R91, R92). -/
theorem decode_of_encode_eq {arch64 tv : Bool} {i : Instr} {r : Request} (hwf : i.wf arch64 tv = true)
    (hr : encode arch64 tv i = r) : decode arch64 tv r = .ok i := hr ▸ decodeOfEncodeIsTheInstruction arch64 tv i hwf

/-- Settles O59: each word is the encoding of its instruction. -/
theorem knownWordsDecode : Obligations.KnownWordsDecode :=
  ⟨decode_of_encode_eq (by decide) (by decide), decode_of_encode_eq (by decide) (by decide),
    decode_of_encode_eq (by decide) (by decide), decode_of_encode_eq (by decide) (by decide),
    decode_of_encode_eq (by decide) (by decide), decode_of_encode_eq (by decide) (by decide),
    decode_of_encode_eq (by decide) (by decide), decode_of_encode_eq (by decide) (by decide +kernel)⟩

end Sys2Proof.Machine

/-! # The deserializer

PARSE, whatever bits it is given (44_deserializer.md R270 to R279): the header of a bit string announces a packet, and PARSE
answers that packet if the string is long enough for it. Then the two operations that read bytes (R280, R281), and the rows
that the same bytes decode to. -/

namespace Sys2Proof.Machine

/-! ### The packet that a header announces -/

theorem require_of_lt {α : Type} {n k : Nat} (r : Except ErrCode α) (h : n < k) : require n k r = .error .badPacket := if_pos h

/-- The weaker of two length checks adds nothing. -/
theorem require_require {α : Type} {n j k : Nat} (r : Except ErrCode α) (h : j ≤ k) :
    require n j (require n k r) = require n k r := by
  by_cases hk : k ≤ n
  · rw [require_of_le _ (h.trans hk)]
  · rw [require_of_lt r (Nat.lt_of_not_le hk)]
    exact ite_self _

/-- A BRANCH packet of either format, with its outcomes, map and address (44_deserializer.md R272 to R274). -/
def branchOf (f : BitVec 2) (branches : Nat) (branchMap : BitVec 31) (mapBits : Nat) (address : Word) (addrBits : Nat) : Packet :=
  { Packet.zero with
    msgType := 2, format := f, branches := branches, branchMap := branchMap, mapBits := mapBits
    address := address, addrBits := addrBits }

theorem format_of_le_one {n : Nat} (h : n ≤ 1) : BitVec.ofNat 2 n = 0 ∨ BitVec.ofNat 2 n = 1 :=
  (Nat.le_one_iff_eq_zero_or_eq_one.mp h).imp (congrArg _) (congrArg _)

section

variable {w : Nat} {tv : Bool} {f : BitVec 2} {b : Nat} {m : BitVec 31} {mb : Nat} {a : Word} {ab : Nat} (hf : f = 0 ∨ f = 1)
include hf

theorem kind_branchOf (hb : b ≠ 0) :
    (branchOf f b m mb a ab).kind = .branchFull ∨ (branchOf f b m mb a ab).kind = .branchDiff := by
  rcases hf with rfl | rfl
  · exact .inl (kind_branchFull m mb a ab hb)
  · exact .inr (kind_branchDiff m mb a ab hb)

theorem minBits_branchOf (hb : b ≠ 0) : minBits w tv (branchOf f b m mb a ab) = 9 + bml b + 1 := by
  rcases kind_branchOf hf hb with hk | hk <;> rw [minBits, hk] <;> rfl

theorem minBits_branchOf_zero : minBits w tv (branchOf f 0 m mb a ab) = 10 := by
  rcases hf with rfl | rfl <;> rfl

theorem canon_branchOf (hb : b ≠ 0) : (branchOf f b m mb a ab).canon w = branchOf f b m mb a ab := by
  rcases hf with rfl | rfl
  · have hk : (branchOf 0 b m mb a ab).kind = .branchFull := kind_branchFull m mb a ab hb
    rw [Packet.canon, hk]; rfl
  · have hk : (branchOf 1 b m mb a ab).kind = .branchDiff := kind_branchDiff m mb a ab hb
    rw [Packet.canon, hk]; rfl

theorem reservedError_branchOf : (branchOf f b m mb a ab).reservedError = none := by
  by_cases hb : b = 0
  · subst hb
    rcases hf with rfl | rfl <;> rfl
  · rcases kind_branchOf hf hb with hk | hk <;> rw [Packet.reservedError, hk]

end

/-- The header of the bits stands for the packet `p`, whose unused fields are 0: PARSE only checks that the bits suffice for
`p`, as reading its row does. -/
structure Announces (w : Nat) (tv : Bool) (s : Bits) (p : Packet) : Prop where
  parse_eq : parse w tv s = require s.length (minBits w tv p) (.ok p)
  canon_eq : p.canon w = p

section

variable {w : Nat} {tv : Bool} {s : Bits}

theorem announces_reservedMsg0 (hmsg : readBits s 0 msgTypeLen = 0) : Announces w tv s Packet.reservedMsg0 where
  parse_eq := by rw [parse, hmsg]; rfl
  canon_eq := rfl

theorem announces_timer (hmsg : readBits s 0 msgTypeLen = 1) :
    Announces w tv s (Packet.timer (BitVec.ofNat 64 (readBits s 2 timeLen))) where
  parse_eq := by rw [parse, hmsg]; exact require_require _ (by decide)
  canon_eq := rfl

theorem announces_software (hmsg : readBits s 0 msgTypeLen = 3) :
    Announces w tv s (Packet.software (BitVec.ofNat 32 (readBits s 2 w))) where
  parse_eq := by rw [parse, hmsg]; exact require_require _ (Nat.le_add_right 2 w)
  canon_eq := rfl

section

variable (hmsg : readBits s 0 msgTypeLen = 2)
include hmsg

theorem announces_addrOnly (hformat : readBits s 2 formatLen = 2) :
    Announces w tv s (Packet.addrOnly (readAddress w s 4).2 (readAddress w s 4).1) where
  parse_eq := by
    rw [parse, hmsg, hformat]
    exact (require_require _ (by decide)).trans (require_require _ (by decide))
  canon_eq := rfl

/-- PARSE of the formats 0 and 1, whose own length check covers the header's. -/
theorem parse_eq_parseBranch (hformat : readBits s 2 formatLen ≤ 1) :
    parse w tv s = parseBranch w (BitVec.ofNat 2 (readBits s 2 formatLen)) s := by
  have hheader (f : BitVec 2) : require s.length 2 (require s.length 4 (parseBranch w f s)) = parseBranch w f s :=
    (congrArg _ (require_require _ (by decide))).trans (require_require _ (by decide))
  rcases Nat.le_one_iff_eq_zero_or_eq_one.mp hformat with h | h
  · rw [parse, hmsg, h]; exact hheader 0
  · rw [parse, hmsg, h]; exact hheader 1

/-- PARSE of format 3, whose own length check covers the header's. -/
theorem parse_eq_parseSync (hformat : readBits s 2 formatLen = 3) : parse w tv s = parseSync w tv s := by
  rw [parse, hmsg, hformat]
  exact (congrArg _ (require_require _ (by decide))).trans (require_require _ (by decide))

section

variable (hformat : readBits s 2 formatLen ≤ 1)
include hformat

theorem announces_outcomes (hb : readBits s 4 branchLen ≠ 0) : Announces w tv s
    (branchOf (BitVec.ofNat 2 (readBits s 2 formatLen)) (readBits s 4 branchLen)
      (BitVec.ofNat 31 (readBits s 9 (bml (readBits s 4 branchLen)))) (bml (readBits s 4 branchLen))
      (readAddress w s (9 + bml (readBits s 4 branchLen))).2 (readAddress w s (9 + bml (readBits s 4 branchLen))).1) where
  parse_eq := by
    rw [parse_eq_parseBranch hmsg hformat, minBits_branchOf (format_of_le_one hformat) hb, parseBranch, if_neg hb]
    exact require_require _ (by omega)
  canon_eq := canon_branchOf (format_of_le_one hformat) hb

theorem announces_fullMap (hb : readBits s 4 branchLen = 0) : Announces w tv s
    (branchOf (BitVec.ofNat 2 (readBits s 2 formatLen)) 0 (readFullMap s).2 (readFullMap s).1 0 0) where
  parse_eq := by
    rw [parse_eq_parseBranch hmsg hformat, minBits_branchOf_zero (format_of_le_one hformat), parseBranch, if_pos hb]
    exact require_require _ (by decide)
  canon_eq := by rcases format_of_le_one hformat with h | h <;> rw [h] <;> rfl

end

section

variable (hformat : readBits s 2 formatLen = 3)
include hformat

theorem announces_syncStart (hsub : readBits s 4 subformatLen = 0) : Announces w tv s
    (Packet.syncStart w (BitVec.ofNat 3 (readBits s 6 privLen)) (extBit s 11) (BitVec.ofNat 64 (readBits s 12 w))) where
  parse_eq := by
    rw [parse_eq_parseSync hmsg hformat, parseSync, hsub]
    exact require_require _ (by omega)
  canon_eq := rfl

theorem announces_syncException (hsub : readBits s 4 subformatLen = 1) : Announces w tv s
    (Packet.syncException w (BitVec.ofNat 3 (readBits s 6 privLen)) (extBit s 11) (BitVec.ofNat 64 (readBits s 12 w))
      (BitVec.ofNat 5 (readBits s (12 + w) causeLen)) (extBit s (17 + w))
      (if tv then BitVec.ofNat 64 (readBits s (18 + w) w) else 0)) where
  parse_eq := by
    rw [parse_eq_parseSync hmsg hformat, parseSync, hsub]
    exact require_require _ (by omega)
  canon_eq := rfl

theorem announces_syncContext (hsub : readBits s 4 subformatLen = 2) :
    Announces w tv s (Packet.syncContext (BitVec.ofNat 3 (readBits s 6 privLen))) where
  parse_eq := by rw [parse_eq_parseSync hmsg hformat, parseSync, hsub]; rfl
  canon_eq := rfl

theorem announces_syncReserved (hsub : readBits s 4 subformatLen = 3) :
    Announces w tv s (Packet.syncReserved (BitVec.ofNat 3 (readBits s 6 privLen))) where
  parse_eq := by rw [parse_eq_parseSync hmsg hformat, parseSync, hsub]; rfl
  canon_eq := rfl

end

end

/-- The headers of 44_deserializer.md R271. -/
theorem header_cases (s : Bits) : readBits s 0 2 = 0 ∨ readBits s 0 2 = 1 ∨ readBits s 0 2 = 3
    ∨ (readBits s 0 2 = 2 ∧ ((readBits s 2 2 ≤ 1 ∧ readBits s 4 5 ≠ 0) ∨ (readBits s 2 2 ≤ 1 ∧ readBits s 4 5 = 0)
      ∨ readBits s 2 2 = 2
      ∨ (readBits s 2 2 = 3 ∧ (readBits s 4 2 = 0 ∨ readBits s 4 2 = 1 ∨ readBits s 4 2 = 2 ∨ readBits s 4 2 = 3)))) := by
  have hmsg := readBits_lt s 0 2
  have hformat := readBits_lt s 2 2
  have hsub := readBits_lt s 4 2
  omega

theorem exists_announces (w : Nat) (tv : Bool) (s : Bits) : ∃ p, Announces w tv s p := by
  rcases header_cases s with hmsg | hmsg | hmsg
    | ⟨hmsg, ⟨hformat, hb⟩ | ⟨hformat, hb⟩ | hformat | ⟨hformat, hsub | hsub | hsub | hsub⟩⟩
  · exact ⟨_, announces_reservedMsg0 hmsg⟩
  · exact ⟨_, announces_timer hmsg⟩
  · exact ⟨_, announces_software hmsg⟩
  · exact ⟨_, announces_outcomes hmsg hformat hb⟩
  · exact ⟨_, announces_fullMap hmsg hformat hb⟩
  · exact ⟨_, announces_addrOnly hmsg hformat⟩
  · exact ⟨_, announces_syncStart hmsg hformat hsub⟩
  · exact ⟨_, announces_syncException hmsg hformat hsub⟩
  · exact ⟨_, announces_syncContext hmsg hformat hsub⟩
  · exact ⟨_, announces_syncReserved hmsg hformat hsub⟩

/-! ### What PARSE answers -/

namespace Announces

variable {p : Packet} (h : Announces w tv s p)
include h

/-- PARSE reads the bits as a row of the announced packet is read. -/
theorem deserialize_eq : deserialize w tv s = readPacket w tv s.length p := by
  by_cases hn : s.length < minBits w tv p
  · simp only [deserialize, h.parse_eq, require_of_lt _ hn, readPacket, if_pos hn]
  · cases hres : p.reservedError <;>
      simp only [deserialize, h.parse_eq, require_of_le _ (Nat.le_of_not_lt hn), readPacket, if_neg hn, hres]

theorem deserialize_ok (hres : p.reservedError = none) (hn : minBits w tv p ≤ s.length) : deserialize w tv s = .ok p := by
  rw [h.deserialize_eq, readPacket, if_neg (Nat.not_lt.mpr hn), hres]

theorem deserialize_reserved {e : ErrCode} (hres : p.reservedError = some e) (hn : minBits w tv p ≤ s.length) :
    deserialize w tv s = .error e := by
  rw [h.deserialize_eq, readPacket, if_neg (Nat.not_lt.mpr hn), hres]

theorem deserialize_short (hn : s.length < minBits w tv p) : deserialize w tv s = .error .badPacket := by
  rw [h.deserialize_eq, readPacket, if_pos hn]

/-- A packet that is rejected as `bad_packet` is so at every length. -/
theorem deserialize_badPacket (hres : p.reservedError = some .badPacket) : deserialize w tv s = .error .badPacket :=
  (Nat.lt_or_ge s.length (minBits w tv p)).elim h.deserialize_short (h.deserialize_reserved hres)

end Announces

end

/-- Settles O36: in each case of the header the bits are too few for the announced packet, or its kind is reserved. -/
theorem parseRejectsReservedAndTruncated : Obligations.ParseRejectsReservedAndTruncated := by
  intro w tv s
  refine ⟨fun hbad => ?_, fun hn hmsg hformat hsub => (announces_syncContext hmsg hformat hsub).deserialize_reserved rfl hn⟩
  rcases header_cases s with hmsg | hmsg | hmsg
    | ⟨hmsg, ⟨hformat, hb⟩ | ⟨hformat, hb⟩ | hformat | ⟨hformat, hsub | hsub | hsub | hsub⟩⟩
  · exact (announces_reservedMsg0 hmsg).deserialize_badPacket rfl
  · exact (announces_timer hmsg).deserialize_short (show s.length < 66 by omega)
  · exact (announces_software hmsg).deserialize_short (show s.length < 2 + w by omega)
  · refine (announces_outcomes hmsg hformat hb).deserialize_short ?_
    rw [minBits_branchOf (format_of_le_one hformat) hb]
    omega
  · refine (announces_fullMap hmsg hformat hb).deserialize_short ?_
    rw [minBits_branchOf_zero (format_of_le_one hformat)]
    omega
  · exact (announces_addrOnly hmsg hformat).deserialize_short (show s.length < 5 by omega)
  · exact (announces_syncStart hmsg hformat hsub).deserialize_short (show s.length < 12 + w by omega)
  · exact (announces_syncException hmsg hformat hsub).deserialize_short
      (show s.length < 18 + w + (if tv then w else 0) by omega)
  · exact (announces_syncContext hmsg hformat hsub).deserialize_short (show s.length < 6 by omega)
  · exact (announces_syncReserved hmsg hformat hsub).deserialize_badPacket rfl

/-- Settles O37: the announced packet, with the place of its address written as R272 and R273 do. -/
theorem parseReadsBranchPackets : Obligations.ParseReadsBranchPackets := by
  intro w tv s n rd b m a _ hmsg hformat
  have hres {b : Nat} {m : BitVec 31} {mb : Nat} {a : Word} {ab : Nat} :=
    reservedError_branchOf (b := b) (m := m) (mb := mb) (a := a) (ab := ab) (format_of_le_one hformat)
  refine ⟨fun hb hn => ?_, fun hb hn => ?_⟩
  · have h := (announces_outcomes (w := w) (tv := tv) hmsg hformat hb).deserialize_ok hres
      ((minBits_branchOf (format_of_le_one hformat) hb).trans_le hn)
    rwa [readAddress, Nat.sub_add_eq] at h
  · exact (announces_fullMap hmsg hformat hb).deserialize_ok hres ((minBits_branchOf_zero (format_of_le_one hformat)).trans_le hn)

theorem decide_readBits_one (s : Bits) (p : Nat) : decide (readBits s p 1 = 1) = extBit s p := by
  simp [readBits]

/-- Settles O38: each packet is the announced one. -/
theorem parseReadsTheOtherPackets : Obligations.ParseReadsTheOtherPackets := by
  intro w tv s
  simp only [decide_readBits_one]
  refine ⟨fun hn hmsg hformat => ?_, fun hn hmsg hformat hsub => ?_, fun hn hmsg hformat hsub => ?_, fun hn hmsg => ?_,
    fun hn hmsg => ?_⟩
  · exact (announces_addrOnly hmsg hformat).deserialize_ok rfl hn
  · exact (announces_syncStart hmsg hformat hsub).deserialize_ok rfl hn
  · exact (announces_syncException hmsg hformat hsub).deserialize_ok rfl hn
  · have huserdata : BitVec.ofNat 32 (readBits s 2 w % 2 ^ 32) = BitVec.ofNat 32 (readBits s 2 w) :=
      BitVec.eq_of_toNat_eq (Nat.mod_mod _ _)
    rw [huserdata]
    exact (announces_software hmsg).deserialize_ok rfl hn
  · exact (announces_timer hmsg).deserialize_ok rfl hn

/-! ### The operations that read bytes -/

/-- Plain bits are read only at an alignment in range, and have the length asked for (44_deserializer.md R280). -/
theorem plainBits_ok {bytes : List Byte} {align n : Nat} {bits : Bits} (h : plainBits bytes align n = .ok bits) :
    align < 8 ∧ bits.length = n := by
  rcases plainBits_cases bytes align n with ⟨-, h'⟩ | ⟨-, -, h'⟩ | ⟨halign, hbytes, h'⟩ <;> rw [h'] at h <;> cases h
  refine ⟨halign, ?_⟩
  unfold bytesFor at hbytes
  rw [List.length_take, List.length_drop, ofBytes_length]
  omega

theorem toNat_frameLen (b : Byte) : (frameLen b).toNat = b.toNat % 16 := by
  rw [frameLen, BitVec.truncate_eq_setWidth, BitVec.toNat_setWidth]

theorem frameBits_cons (b : Byte) (rest : List Byte) : frameBits (b :: rest) =
    if rest.length < b.toNat % 16 + 1 then .error .badPacket
    else .ok (frameLen b, (ofBytes ((b :: rest).take (b.toNat % 16 + 2))).drop 4) := by
  have hlength : rest.length + 1 < b.toNat % 16 + 2 ↔ rest.length < b.toNat % 16 + 1 := Nat.add_lt_add_iff_right
  simp only [frameBits, toNat_frameLen, List.length_cons, hlength]

/-- The body of a frame has the length that its nibble announces (44_deserializer.md R281). -/
theorem frameBits_length {bytes : List Byte} {len : BitVec 4} {bits : Bits} (h : frameBits bytes = .ok (len, bits)) :
    bits.length = 8 * (len.toNat + 2) - pulpPktLen := by
  cases bytes with
  | nil => cases h
  | cons b rest =>
    simp only [frameBits] at h
    split at h
    · cases h
    · cases h
      rw [List.length_drop, ofBytes_length, List.length_take, Nat.min_eq_left (Nat.le_of_not_lt ‹_›)]

section

variable {s : State} {bytes : List Byte} {align n : Nat} {bits : Bits} {len : BitVec 4} {e : ErrCode} {p : Packet}

theorem desPlainOp_of_plainBits_error (h : plainBits bytes align n = .error e) : desPlainOp bytes align n s = s.fail e := by
  rw [desPlainOp, h]

theorem desPlainOp_of_error (hbits : plainBits bytes align n = .ok bits) (h : deserialize s.xlen true bits = .error e) :
    desPlainOp bytes align n s = s.fail e := by
  simp only [desPlainOp, hbits, h]

theorem desPlainOp_of_ok (hbits : plainBits bytes align n = .ok bits) (h : deserialize s.xlen true bits = .ok p) :
    desPlainOp bytes align n s = s.doneDes (plainResult align n p) := by
  simp only [desPlainOp, hbits, h]

theorem desPulpOp_of_frameBits_error (h : frameBits bytes = .error e) : desPulpOp bytes s = s.fail e := by
  rw [desPulpOp, h]

theorem desPulpOp_of_error (hbits : frameBits bytes = .ok (len, bits))
    (h : deserialize s.xlen s.params.pulpTval bits = .error e) : desPulpOp bytes s = s.fail e := by
  simp only [desPulpOp, hbits, h]

theorem desPulpOp_of_ok (hbits : frameBits bytes = .ok (len, bits))
    (h : deserialize s.xlen s.params.pulpTval bits = .ok p) : desPulpOp bytes s = s.doneDes (pulpResult len p) := by
  simp only [desPulpOp, hbits, h]

end

/-- An operation that fails answers the code, and changes STATUS and the ports only (60_exceptions.md R304). -/
theorem next_of_eq_fail {s t : State} {e : ErrCode} (h : t = s.fail e) : ∃ q : Ports,
    (.next t : Host.Outcome State Fault Refusal) = .next { s with status := e, ports := q } ∧ q.result = e :=
  ⟨_, congrArg _ h, rfl⟩

/-- Settles O34: the checks in order, then the parse. -/
theorem desPlainParsesTheBitsAtAlign : Obligations.DesPlainParsesTheBitsAtAlign := by
  intro s bytes align n bits
  have hbits (halign : align < 8) (hbytes : (align + n + 7) / 8 ≤ bytes.length) : plainBits bytes align n = .ok bits := by
    rw [plainBits, if_neg (Nat.not_le.mpr halign), bytesFor, if_neg (Nat.not_lt.mpr hbytes)]
  refine ⟨fun halign => ?_, fun halign hbytes => ?_, fun e halign hbytes he => ?_, fun p halign hbytes hp => ?_⟩
  · have h : plainBits bytes align n = .error .invalid := if_pos halign
    exact next_of_eq_fail (desPlainOp_of_plainBits_error h)
  · have h : plainBits bytes align n = .error .badPacket := by
      rw [plainBits, if_neg (Nat.not_le.mpr halign), bytesFor, if_pos hbytes]
    exact next_of_eq_fail (desPlainOp_of_plainBits_error h)
  · exact next_of_eq_fail (desPlainOp_of_error (hbits halign hbytes) he)
  · exact ⟨(plainBits_ok (hbits halign hbytes)).2, _, congrArg _ (desPlainOp_of_ok (hbits halign hbytes) hp), rfl, rfl⟩

/-- Settles O35: the nibble, the check of the length it announces, then the parse. -/
theorem desPulpParsesOneFrame : Obligations.DesPulpParsesOneFrame := by
  intro s
  refine ⟨next_of_eq_fail (desPulpOp_of_frameBits_error rfl), fun b rest => ?_⟩
  intro len bits
  have hbits (hrest : len + 1 ≤ rest.length) : frameBits (b :: rest) = .ok (frameLen b, bits) := by
    rw [frameBits_cons, if_neg (Nat.not_lt.mpr hrest)]
  refine ⟨fun hrest => ?_, fun e hrest he => ?_, fun p hrest hp => ?_⟩
  · have h : frameBits (b :: rest) = .error .badPacket := by rw [frameBits_cons, if_pos hrest]
    exact next_of_eq_fail (desPulpOp_of_frameBits_error h)
  · exact next_of_eq_fail (desPulpOp_of_error (hbits hrest) he)
  · have hlength := frameBits_length (hbits hrest)
    have hdes := desPulpOp_of_ok (hbits hrest) hp
    rw [pulpResult, toNat_frameLen] at hdes
    rw [toNat_frameLen] at hlength
    exact ⟨hlength, _, congrArg _ hdes, rfl, rfl⟩

/-! ### Reading bytes and running the row they decode to -/

section

variable {s : State} {bytes : List Byte} {align n : Nat} {bits : Bits} {len : BitVec 4} {p : Packet}

/-- OP_DES_PLAIN on the bits of the announced packet reads that packet's row. -/
theorem desPlainOp_of_announces (hbits : plainBits bytes align n = .ok bits) (h : Announces s.xlen true bits p) :
    desPlainOp bytes align n s = usePlain (.read align n) p s := by
  obtain ⟨halign, hlen⟩ := plainBits_ok hbits
  simp only [desPlainOp, hbits, h.deserialize_eq, hlen, usePlain, if_neg (Nat.not_le.mpr halign)]

/-- OP_DES_PULP on the frame of the announced packet reads that packet's row. -/
theorem desPulpOp_of_announces (hbits : frameBits bytes = .ok (len, bits))
    (h : Announces s.xlen s.params.pulpTval bits p) : desPulpOp bytes s = usePulp (.read len) p s := by
  simp only [desPulpOp, hbits, h.deserialize_eq, frameBits_length hbits, usePulp]

theorem exec_plainInstr (u : PlainUse) (hcanon : p.canon s.xlen = p) : exec (p.plainInstr u) s = .next (usePlain u p s) := by
  rw [exec_of_form_plain (plainInstr_form s.xlen u p), hcanon]

theorem exec_pulpInstr (u : PulpUse) (hcanon : p.canon s.xlen = p) : exec (p.pulpInstr u) s = .next (usePulp u p s) := by
  rw [exec_of_form_pulp (pulpInstr_form s.xlen u p), hcanon]

end

/-- Settles O40: where PARSE gives the announced packet both read its row; where the bits are too few both fail. -/
theorem deserializingIsDecodingAndRunning : Obligations.DeserializingIsDecodingAndRunning := by
  intro s bytes align n
  constructor
  · show (.next (desPlainOp bytes align n s) : Host.Outcome State Fault Refusal) = _
    cases hbits : plainBits bytes align n with
    | error e => simp only [decode, hbits, desPlainOp]
    | ok bits =>
      obtain ⟨p, h⟩ := exists_announces s.xlen true bits
      rcases Nat.lt_or_ge bits.length (minBits s.xlen true p) with hn | hn
      · have hparse : parse (xlen (Cfg0.arch64 s.cfg0)) true bits = .error .badPacket := h.parse_eq.trans (require_of_lt _ hn)
        simp only [decode, hbits, hparse, desPlainOp_of_error hbits (h.deserialize_short hn)]
      · have hparse : parse (xlen (Cfg0.arch64 s.cfg0)) true bits = .ok p := h.parse_eq.trans (require_of_le _ hn)
        simp only [decode, hbits, hparse, exec_plainInstr _ h.canon_eq, desPlainOp_of_announces hbits h]
  · show (.next (desPulpOp bytes s) : Host.Outcome State Fault Refusal) = _
    cases hbits : frameBits bytes with
    | error e => simp only [decode, hbits, desPulpOp]
    | ok frame =>
      obtain ⟨len, bits⟩ := frame
      obtain ⟨p, h⟩ := exists_announces s.xlen s.params.pulpTval bits
      rcases Nat.lt_or_ge bits.length (minBits s.xlen s.params.pulpTval p) with hn | hn
      · have hparse : parse (xlen (Cfg0.arch64 s.cfg0)) s.params.pulpTval bits = .error .badPacket :=
          h.parse_eq.trans (require_of_lt _ hn)
        simp only [decode, hbits, hparse, desPulpOp_of_error hbits (h.deserialize_short hn)]
      · have hparse : parse (xlen (Cfg0.arch64 s.cfg0)) s.params.pulpTval bits = .ok p := h.parse_eq.trans (require_of_le _ hn)
        simp only [decode, hbits, hparse, exec_pulpInstr _ h.canon_eq, desPulpOp_of_announces hbits h]

end Sys2Proof.Machine

/-! # Errors

An operation that fails ends by taking its error (60_exceptions.md R304, R305), and OP_CLEAR_STATUS is the return from one
(R306). -/

namespace Sys2Proof.Machine

/-- An operation that answers an error has taken it: of the ways in which an instruction can end, the others answer OK. -/
theorem ExecAnswers.exists_raise {i : Instr} {s t : State} (h : ExecAnswers i s t) (hfail : t.ports.result ≠ .noError) :
    ∃ e stats, t = s.raise e stats := by
  cases h with
  | codec answers =>
    cases answers with
    | ok result => exact absurd result hfail
    | @error e _ stats => exact ⟨e, stats, rfl⟩
  | unsupported => exact ⟨.badInstr, s.stats, rfl⟩
  | cleared _ result => exact absurd result hfail

/-- Settles O50: `State.raise` writes STATUS, the statistics and the ports only, and answers the code that STATUS takes. -/
theorem failedOperationKeepsTheState : Obligations.FailedOperationKeepsTheState := by
  intro i s t h hfail
  obtain ⟨u, hu, answers⟩ := exec_answers i s
  cases hu.symm.trans h
  obtain ⟨e, stats, rfl⟩ := answers.exists_raise hfail
  rfl

/-- Settles O5: OP_CLEAR_STATUS writes what `State.clearStatus` writes, and answers OK. -/
theorem opClearStatusSetsNone : Obligations.OpClearStatusSetsNone :=
  fun _ => ⟨Ports.ok, rfl, rfl⟩

end Sys2Proof.Machine

/-! # Reset

Power-on and OP_RESET give the block the same values (70_reset_and_hazards.md R340, R341): both are `State.configure` with
the two configuration registers 0. -/

namespace Sys2Proof.Machine

/-- OP_RESET makes the writes of OP_CONFIG with CFG0 and CFG1 0, and answers OK (70_reset_and_hazards.md R340, R342). -/
theorem exec_opReset (s : State) : exec .opReset s = .next (s.configure 0 0).done := rfl

/-- Power-on is the reset state: the writes of OP_RESET change nothing of it (70_reset_and_hazards.md R341, R343). -/
theorem State.reset_configure : State.reset.configure 0 0 = State.reset := rfl

/-- Settles O1: the elements one by one, as the table of 70_reset_and_hazards.md R341 lists them. -/
theorem resetStateHoldsListedValues : Obligations.ResetStateHoldsListedValues :=
  ⟨rfl, rfl, rfl, rfl, rfl, rfl, rfl, rfl, rfl, rfl, rfl, rfl, rfl, rfl, rfl⟩

/-- Settles O2: the writes are those of `State.configure`, which keeps both queues. -/
theorem opResetRestoresAllButTheQueues : Obligations.OpResetRestoresAllButTheQueues :=
  fun s => ⟨Ports.ok, exec_opReset s, rfl⟩

/-- Settles O55: what `State.configure` writes meets the invariant, and power-on is what it writes. -/
theorem resetMeetsTheInvariant : Obligations.ResetMeetsTheInvariant := by
  have reserved (k : Nat) (_ : 7 ≤ k) : (0 : BitVec 32).getLsbD k = false := BitVec.getLsbD_zero
  have h : (State.reset.configure 0 0).Inv := State.Inv.configure State.reset 0 reserved
  rwa [State.reset_configure] at h

end Sys2Proof.Machine

/-! # Injected packets, and rows that are read

OP_INJECT emits the two kinds of packet that are not trace packets (42_encoder_fsm.md R177); a packet row that is read
answers its packet (44_deserializer.md R271). -/

namespace Sys2Proof.Machine

/-! ### OP_INJECT -/

theorem canon_of_timer (w : Nat) {p : Packet} (h : p.msgType = 1) : p.canon w = Packet.timer p.time := by
  have hk : p.kind = .timer := by simp [Packet.kind, h]
  simp only [Packet.canon, hk]

theorem canon_of_software (w : Nat) {p : Packet} (h : p.msgType = 3) : p.canon w = Packet.software p.userdata := by
  have hk : p.kind = .software := by simp [Packet.kind, h]
  simp only [Packet.canon, hk]

/-- The packet that OP_INJECT queues (42_encoder_fsm.md R177; log entry 10). -/
theorem canon_of_timer_or_software (w : Nat) {p : Packet} (h : p.msgType = 1 ∨ p.msgType = 3) :
    p.canon w = if p.msgType = 1 then Packet.timer p.time else Packet.software p.userdata := by
  rcases h with h | h
  · rw [if_pos h, canon_of_timer w h]
  · rw [if_neg (by simp [h]), canon_of_software w h]

/-- The stream writer takes every Timer and Software packet, in both framings (42_encoder_fsm.md R203). -/
theorem writePacket_ok_of_timer_or_software (s : State) {p : Packet} (h : p.msgType = 1 ∨ p.msgType = 3) :
    ∃ wr, writePacket s (p.canon s.xlen) = .ok wr := by
  refine writePacket_ok_of_fits ?_ fun hk => ?_
  · rw [validate_canon]
    exact validate_of_timer_or_software _ h
  · rw [canon_kind] at hk
    rcases h with h | h <;> simp [Packet.kind, h] at hk

theorem exec_opInject {s : State} {p : Packet} (h : p.msgType = 1 ∨ p.msgType = 3) :
    exec (.opInject p) s = .next (emitPacket s s (p.canon s.xlen) id) :=
  congrArg _ (if_pos h)

/-- Settles O19: the packet is emitted from the state as it is, and the stream writer takes it; any other packet fails. -/
theorem injectEmitsTimerAndSoftwareOnly : Obligations.InjectEmitsTimerAndSoftwareOnly := by
  intro s p
  refine ⟨fun h => ?_, fun h => next_of_eq_fail (if_neg h)⟩
  obtain ⟨wr, hwr⟩ := writePacket_ok_of_timer_or_software s h
  rw [exec_opInject h, emitPacket, hwr, canon_of_timer_or_software s.xlen h]
  exact ⟨_, wr.bytes, wr.align, wr.carry, Ports.ok, rfl, rfl⟩

/-! ### Reading a packet row -/

theorem reservedError_canon (w : Nat) (p : Packet) : (p.canon w).reservedError = p.reservedError := by
  simp only [Packet.reservedError, canon_kind]

theorem minBits_canon (w : Nat) (tv : Bool) (p : Packet) : minBits w tv (p.canon w) = minBits w tv p := by
  simp only [minBits, canon_kind]
  cases hk : p.kind <;> simp only [Packet.canon, hk] <;> rfl

/-- A packet of no reserved kind is read from as many bits as its kind needs (44_deserializer.md R271). -/
theorem readPacket_ok {w : Nat} {tv : Bool} {n : Nat} {p : Packet} (hres : p.reservedError = none) (hn : minBits w tv p ≤ n) :
    readPacket w tv n p = .ok p := by
  rw [readPacket, if_neg (Nat.not_lt.mpr hn), hres]

theorem readPacket_canon {w : Nat} {tv : Bool} {n : Nat} {p : Packet} (hres : p.reservedError = none)
    (hn : minBits w tv p ≤ n) : readPacket w tv n (p.canon w) = .ok (p.canon w) :=
  readPacket_ok ((reservedError_canon w p).trans hres) ((minBits_canon w tv p).trans_le hn)

/-- Settles O39: a row is its packet with the unused fields 0, whose kind and bit count are the packet's. -/
theorem readingARowAnswersItsPacket : Obligations.ReadingARowAnswersItsPacket := by
  intro s p hres
  refine ⟨fun align n halign hn => ?_, fun len hn => ?_⟩
  · rw [exec_of_form_plain (plainInstr_form s.xlen (.read align n) p), usePlain, if_neg (Nat.not_le.mpr halign),
      readPacket_canon hres hn]
    exact ⟨_, rfl, rfl, rfl⟩
  · rw [exec_of_form_pulp (pulpInstr_form s.xlen (.read len) p), usePulp, readPacket_canon hres hn]
    exact ⟨_, rfl, rfl, rfl⟩

end Sys2Proof.Machine

/-! # Queued packets

The packets that the encoder builds hold values that a reader finds again in their bits (41_address_packer.md R157,
40_accumulator.md R137, 44_deserializer.md R282). -/

namespace Sys2Proof.Machine

/-! ### Packets that a reader gives back -/

/-- A packet in range and sign-consistent, of no reserved kind, with every unused field 0 (44_deserializer.md R282). -/
structure Readable (w : Nat) (p : Packet) : Prop where
  fieldsOk : p.fieldsOk w true = true
  reservedError : p.reservedError = none
  canon : p = p.canon w

theorem readable_timer (w : Nat) (time : BitVec 64) : Readable w (Packet.timer time) := ⟨rfl, rfl, rfl⟩

theorem readable_software (w : Nat) (userdata : BitVec 32) : Readable w (Packet.software userdata) := ⟨rfl, rfl, rfl⟩

section

variable {w cnt k : Nat} {m : BitVec 31} {a x : Word}

theorem readable_syncStart (priv : BitVec 3) (b : Bool) (ha : a.toNat < 2 ^ w) : Readable w (Packet.syncStart w priv b a) :=
  ⟨(fieldsOk_syncStart rfl).mpr ha, rfl, rfl⟩

theorem readable_syncException (priv : BitVec 3) (b : Bool) (cause : BitVec 5) (it : Bool) (ha : a.toNat < 2 ^ w)
    (hx : x.toNat < 2 ^ w) : Readable w (Packet.syncException w priv b a cause it x) :=
  ⟨(fieldsOk_syncException rfl).mpr ⟨ha, hx, .inl rfl⟩, rfl, rfl⟩

theorem readable_addrOnly (hk : 1 ≤ k ∧ k ≤ w) (ha : signConsistent w k a = true) : Readable w (Packet.addrOnly a k) :=
  ⟨(fieldsOk_addrOnly rfl).mpr ⟨hk, ha⟩, rfl, rfl⟩

theorem readable_branchFullNoaddr (hk : 1 ≤ k ∧ k ≤ 31) (hm : sext 31 k (m.toNat % 2 ^ k) = m.toNat) :
    Readable w (Packet.branchFullNoaddr m k) := by
  refine ⟨(fieldsOk_branchNoaddr (.inl rfl)).mpr ⟨hk, ?_⟩, rfl, rfl⟩
  change m = BitVec.ofNat 31 (sext 31 k (m.toNat % 2 ^ k))
  rw [hm, BitVec.ofNat_toNat, BitVec.setWidth_eq]

/-- Outcomes at and above the count are 0, so the map fits the width that the count gives (40_accumulator.md R134, R137). -/
theorem map_lt_two_pow_bml (hcnt : cnt ≤ 31) (hm : m.toNat < 2 ^ cnt) : m.toNat < 2 ^ bml cnt :=
  Nat.lt_of_lt_of_le hm (Nat.pow_le_pow_right (by decide) (bml_ge cnt hcnt))

theorem readable_branchFull (hcnt : cnt ≠ 0 ∧ cnt ≤ 31) (hm : m.toNat < 2 ^ cnt) (hk : 1 ≤ k ∧ k ≤ w)
    (ha : signConsistent w k a = true) : Readable w (Packet.branchFull cnt m (bml cnt) a k) := by
  have hkind := kind_branchFull m (bml cnt) a k hcnt.1
  refine ⟨(fieldsOk_branch (.inl hkind)).mpr ?_, ?_, ?_⟩
  · exact ⟨⟨Nat.pos_of_ne_zero hcnt.1, hcnt.2⟩, rfl, map_lt_two_pow_bml hcnt.2 hm, hk, ha⟩
  · rw [Packet.reservedError, hkind]
  · rw [Packet.canon, hkind]; rfl

theorem readable_branchDiff (hcnt : cnt ≠ 0 ∧ cnt ≤ 31) (hm : m.toNat < 2 ^ cnt) (hk : 1 ≤ k ∧ k ≤ w)
    (ha : signConsistent w k a = true) : Readable w (Packet.branchDiff cnt m (bml cnt) a k) := by
  have hkind := kind_branchDiff m (bml cnt) a k hcnt.1
  refine ⟨(fieldsOk_branch (.inr hkind)).mpr ?_, ?_, ?_⟩
  · exact ⟨⟨Nat.pos_of_ne_zero hcnt.1, hcnt.2⟩, rfl, map_lt_two_pow_bml hcnt.2 hm, hk, ha⟩
  · rw [Packet.reservedError, hkind]
  · rw [Packet.canon, hkind]; rfl

/-! ### The widths that the encoder chooses -/

theorem signConsistent_of_sext (h : sext w k (a.toNat % 2 ^ k) = a.toNat) : signConsistent w k a = true := by
  rw [signConsistent, h, BitVec.ofNat_toNat, BitVec.setWidth_eq, beq_self_eq_true]

theorem signConsistent_full (ha : a.toNat < 2 ^ w) : signConsistent w w a = true :=
  signConsistent_of_sext (by rw [sext_full, Nat.mod_eq_of_lt ha])

/-- The bits that the packer keeps of an address stand for the address (41_address_packer.md R157). -/
theorem signConsistent_keep (qs : Bool) (hw : 1 ≤ w) (ha : a.toNat < 2 ^ w) : signConsistent w (keep (lead qs w a) w) a = true :=
  signConsistent_of_sext (sext_mod_keep hw ha (lead_le_seb qs w a))

end

/-- The bits of a full-map packet stand for the map, compressed or not (40_accumulator.md R135). -/
theorem sext_fullmapBits (compress : Bool) (bits : BitVec 31) :
    sext 31 (fullmapBits compress bits) (bits.toNat % 2 ^ fullmapBits compress bits) = bits.toNat := by
  obtain ⟨hfalse, -, -, -, htrue⟩ := fullMapWidthGivesTheMapBack bits
  cases compress with
  | true => exact htrue
  | false => rw [hfalse, sext_full, Nat.mod_eq_of_lt bits.isLt]

/-! ### The packets of PROCESS -/

/-- Every form of FLUSH's packet sends the outcomes in the accumulator, an address cut to a width that gives it back, or
both (42_encoder_fsm.md R194 to R198). -/
theorem readable_flushPacket {s : State} (disc : Bool) (haddr : s.thisSlot.iaddr.toNat < 2 ^ s.xlen)
    (hmap : s.map.bits.toNat < 2 ^ s.map.cnt.toNat) : Readable s.xlen (s.flushPacket disc) := by
  have hcnt : s.map.cnt.toNat ≤ 31 := Nat.le_of_lt_succ s.map.cnt.isLt
  have hdiff : s.flushDiff.toNat < 2 ^ s.xlen := truncX_lt _ _
  have hfull : 1 ≤ s.xlen ∧ s.xlen ≤ s.xlen := ⟨s.xlen_pos, Nat.le_refl _⟩
  rw [flushPacket_eq]
  dsimp only
  split_ifs with hzero
  · exact readable_addrOnly hfull (signConsistent_full haddr)
  · exact readable_addrOnly (keep_lead_range s _ _) (signConsistent_keep _ s.xlen_pos hdiff)
  · exact readable_branchFullNoaddr (by decide) (sext_fullmapBits false s.map.bits)
  · exact readable_branchFull ⟨hzero, hcnt⟩ hmap hfull (signConsistent_full haddr)
  · exact readable_branchDiff ⟨hzero, hcnt⟩ hmap (keep_lead_range s _ _) (signConsistent_keep _ s.xlen_pos hdiff)
  · exact readable_branchFull ⟨hzero, hcnt⟩ hmap (keep_lead_range s _ _) (signConsistent_keep _ s.xlen_pos haddr)

/-- The outcome that PROCESS records may fill the map, but keeps the bits above the count 0 (40_accumulator.md R137). -/
theorem readable_of_process {s t : State} {p : Packet} (hinv : s.Inv) (h : s.process = .ok (t, some p)) :
    Readable s.xlen p := by
  rcases process_cases s with ⟨-, h'⟩ | ⟨-, -, h'⟩ | ⟨-, row, hrow, -, h'⟩
  · cases h'.symm.trans h
  · cases h'.symm.trans h
  · obtain ⟨u, q, hact, hu⟩ := rowAction_cases s.recordBranch s.syncBranchBit row hrow
    cases (h'.trans hact).symm.trans h
    have hmap := recordBranch_map_bits hinv.map_cnt hinv.map_bits
    have haddr : s.recordBranch.thisSlot.iaddr.toNat < 2 ^ s.recordBranch.xlen := by simpa using hinv.thisSlot.iaddr_fits
    have htval : s.recordBranch.lastSlot.tval.toNat < 2 ^ s.recordBranch.xlen := by simpa using hinv.lastSlot.tval_fits
    rw [← State.recordBranch_xlen s]
    rcases hu with ⟨-, -, rfl⟩ | ⟨-, -, rfl⟩ | ⟨-, -, rfl⟩ | ⟨-, -, rfl⟩ | ⟨-, -, rfl⟩
    · exact readable_syncException _ _ _ _ haddr htval
    · exact readable_syncStart _ _ haddr
    · exact readable_flushPacket true haddr hmap
    · exact readable_flushPacket false haddr hmap
    · exact readable_branchFullNoaddr (fullmapBits_range _ _) (sext_fullmapBits _ _)

/-- A packet of OP_INJECT is canonical by the model's reading (log entry 10). -/
theorem Prepares.readable {i : Instr} {s w : State} {p : Packet} {finish : State → State} (hinv : s.Inv)
    (h : Prepares i s w (some p) finish) : Readable s.xlen p := by
  cases h with
  | @step r _ _ _ _ _ process => exact readable_of_process (s := s.shiftRecord r) (hinv.shiftRecord r) process
  | finish _ process =>
    have hshift : (s.shiftIn Slot.empty).Inv := hinv.shiftIn (Slot.inv_empty _) (changesFrom_empty _) rfl
    exact readable_of_process (s := s.shiftIn Slot.empty) hshift process
  | inject _ kind =>
    rw [canon_of_timer_or_software _ kind]
    split
    · exact readable_timer _ _
    · exact readable_software _ _

/-- Settles O23: the queued packet is the one that the operation prepared. -/
theorem queuedPacketsAreSignConsistent : Obligations.QueuedPacketsAreSignConsistent := by
  intro s t i p hinv h hq
  obtain ⟨w, wr, finish, prepares, -, -⟩ := exec_emitted h hq
  obtain ⟨hfields, hres, hcanon⟩ := prepares.readable hinv
  exact ⟨hfields, hres, hcanon⟩

end Sys2Proof.Machine

/-! # Properties of SEB

What 41_address_packer.md R151 derives from the longest uniform top of R150. -/

namespace Sys2Proof.Machine

section

variable {w x k : Nat}

theorem testBit_complement {i : Nat} (hx : x < 2 ^ w) (hi : i < w) : (2 ^ w - 1 - x).testBit i = !x.testBit i := by
  rw [Nat.sub_sub, Nat.add_comm 1 x, Nat.testBit_two_pow_sub_succ hx, decide_eq_true hi, Bool.true_and]

/-- Complementing keeps which bits are equal to the most significant one. -/
theorem seb_complement (hw : 1 ≤ w) (hx : x < 2 ^ w) : seb w (2 ^ w - 1 - x) = seb w x := by
  refine eq_of_forall_le_iff fun k => ?_
  rcases Nat.lt_or_ge w k with hk | hk
  · have := seb_le w x
    have := seb_le w (2 ^ w - 1 - x)
    omega
  · rw [le_seb_iff hk, le_seb_iff hk]
    refine forall_congr' fun i => imp_congr_right fun _ => forall_congr' fun hi => ?_
    rw [testBit_complement hx hi, testBit_complement hx (by omega), Bool.not_inj_iff]

/-- All the bits are counted exactly in the two extreme values. -/
theorem seb_eq_width_iff (hw : 1 ≤ w) (hx : x < 2 ^ w) : seb w x = w ↔ x = 0 ∨ x = 2 ^ w - 1 := by
  obtain ⟨-, hle, huniform⟩ := sebIsTheLongestUniformTop w x hw hx
  have hall := huniform w hw (Nat.le_refl w)
  rw [Nat.sub_self, Nat.pow_zero, Nat.div_one] at hall
  rw [hall]
  omega

/-- A width that sign-extends to the value drops only bits that SEB counts, and its sign bit is one more of them. -/
theorem lt_add_seb_of_sext (hk : 1 ≤ k) (hkw : k ≤ w) (h : sext w k (x % 2 ^ k) = x) : w < k + seb w x := by
  have hsign {i : Nat} (hi : k ≤ i + 1) (hiw : i < w) : x.testBit i = (x % 2 ^ k).testBit (k - 1) := by
    conv_lhs => rw [← h]
    rw [testBit_sext hkw (Nat.mod_lt _ (Nat.two_pow_pos k)), decide_eq_true hiw, Bool.and_true]
    split
    · rw [show i = k - 1 by omega]
    · rfl
  have hcounted : w - k + 1 ≤ seb w x := by
    rw [le_seb_iff (by omega)]
    intro i hi hiw
    rw [hsign (by omega) hiw, hsign (by omega) (by omega)]
  omega

end

/-- Settles O45: each part by the bits that SEB counts; the shortest width is what KEEP keeps of that count. -/
theorem sebProperties : Obligations.SebProperties := by
  intro w x hw hx
  have hpos := seb_pos x hw
  have hle := seb_le w x
  have hkeep : keep (seb w x) w = w - seb w x + 1 := by unfold keep; omega
  refine ⟨seb_complement hw hx, seb_eq_width_iff hw hx, ?_, fun k hk hlt h => ?_⟩
  · rw [← hkeep]
    exact sext_mod_keep hw hx (Nat.le_refl _)
  · have := lt_add_seb_of_sext hk (by omega) h
    omega

end Sys2Proof.Machine
